-- ==== Sys2Proof/Word.lean ====
section
/-! DEFINITION. The word types of the Tulvar 1624's frames: a byte of a payload and a 48-bit Ethernet address. Everything
that is a count, a name or a measured quantity inside the unit is a number (`Nat` or `Int`), not a word. -/

namespace Sys2Proof

/-- One byte of a frame payload. -/
abbrev Byte := BitVec 8

/-- A 48-bit Ethernet address (R169). -/
abbrev Mac := BitVec 48

end Sys2Proof
end

