-- ==== Sys2Proof/Syntax.lean ====
section
/-! DEFINITION. The commands of the Tulvar 1624: one constructor of `Instr` for each row of spec/opcode_table.json, with
the operands the spec's rules give the row (the table itself lists none), and the operand records. -/

namespace Sys2Proof

/-- The two Ethernet ports (R162): U faces the supervisor, D the turbine ring. -/
inductive Port where
  | u
  | d
  deriving DecidableEq, Repr

/-- One Ethernet frame, taken whole (R162): the two addresses, the type field, the payload that follows it and the frame
check sequence. -/
structure EthFrame where
  dst : Mac
  src : Mac
  etype : BitVec 16
  payload : List Byte
  fcs : BitVec 32
  deriving DecidableEq, Repr

/-- The addressing of a farm control frame (R174 header, less version, kind and length) together with the Ethernet
addresses it travels under. -/
structure Addr where
  ethDst : Mac
  ethSrc : Mac
  dest : Byte
  src : Byte
  set : Byte
  flags : Byte
  deriving DecidableEq, Repr

/-- One item of a SETPOINT body (R174): node, quantity code, value. -/
structure Item where
  node : Byte
  quantity : Byte
  value : BitVec 16
  deriving DecidableEq, Repr

/-- The body of a REPORT frame (R174). -/
structure ReportBody where
  offset : BitVec 16
  motion : Byte
  state : Byte
  speed : BitVec 16
  direction : BitVec 16
  deriving DecidableEq, Repr

/-- The body of a MET frame (R174). -/
structure MetBody where
  speed : BitVec 16
  direction : BitVec 16
  quality : Byte
  deriving DecidableEq, Repr

/-- What a MANAGE frame carries beside its request (R170, R174): its Ethernet addresses, its source node, its set number,
its flags and the request's tag. Its destination is the unit's node address. -/
structure Env where
  ethDst : Mac
  ethSrc : Mac
  src : Byte
  set : Byte
  flags : Byte
  tag : Byte
  deriving DecidableEq, Repr

/-- The fields of a LOAD TURBINE request (R2, R174). -/
structure TurbineReq where
  node : Byte
  row : Byte
  column : Byte
  format : Byte
  limit : BitVec 16
  rate : BitVec 16
  deriving DecidableEq, Repr

/-- One entry of a LOAD SOURCES request (R22, R174). -/
structure SourceReq where
  kind : Byte
  node : Byte
  deriving DecidableEq, Repr

/-- One row entry of a LOAD PLAN request (R41, R174). -/
structure EntryReq where
  row : Byte
  spacing : BitVec 16
  gate : Byte
  slack : BitVec 16
  action : Byte
  deriving DecidableEq, Repr

/-- The fields of a LOAD PLAN request (R50, R174): `entries` are the whole entries the request's bytes hold, and `count`
is the number its count field names. -/
structure PlanReq where
  sector : Byte
  k : BitVec 16
  holdStart : Byte
  hmin : BitVec 16
  hmax : BitVec 16
  count : Byte
  entries : List EntryReq
  deriving DecidableEq, Repr

/-- The commands: one constructor for each row of spec/opcode_table.json. -/
inductive Instr where
  /-- POWER_ON: release of RSTN with the levels found at the straps, the STORM and YHOLD lines and the two ports. -/
  | powerOn (straps : Byte) (storm yhold linkU linkD : Bool)
  | rstnHold
  | count
  | estimateStep
  | quietTimerExpiry
  | lapseExpiry
  | deadlineExpiry (node : Nat)
  | aReached (wave row : Nat)
  | pReached (wave row : Nat)
  | frameReceived (port : Port) (frame : EthFrame)
  | setpointFrame (addr : Addr) (items : List Item)
  | reportFrame (addr : Addr) (body : ReportBody)
  | metFrame (addr : Addr) (body : MetBody)
  | status (env : Env)
  | setParam (env : Env) (number : Byte) (value : BitVec 32)
  | getParam (env : Env) (number : Byte)
  | loadTurbine (env : Env) (req : TurbineReq)
  | dropTurbine (env : Env) (node : Byte)
  | loadSources (env : Env) (number : Byte) (entries : List SourceReq)
  | loadPlan (env : Env) (req : PlanReq)
  | dropPlan (env : Env) (sector : Byte)
  | readTurbine (env : Env) (first number : Byte)
  | readRow (env : Env) (row : Byte)
  | readWave (env : Env) (position first : Byte)
  | readNeutral (env : Env)
  | readPlan (env : Env) (sector : Byte)
  | readCounts (env : Env)
  | modeSteer (env : Env)
  | stopKeep (env : Env)
  | stopNeutral (env : Env)
  | neutral (env : Env) (rows : BitVec 16)
  | maskSet (env : Env) (rows : BitVec 16)
  | maskClear (env : Env) (rows : BitVec 16)
  | restart (env : Env)
  | unknownRequest (env : Env) (code : Byte) (fields : List Byte)
  | stormLineChange (level : Bool)
  | yawHoldChange (level : Bool)
  | linkLoss (port : Port)
  | linkReturn (port : Port)
  | dividerArrival
  | dividerServiceStart
  | transmitCompletion (port : Port)
  | stepRelease (wave row : Nat)
  | grant
  | retargetFrame
  | waveCompletion (wave : Nat)
  | drainEnd
  | returnEnd
  deriving DecidableEq, Repr

end Sys2Proof
end

