-- ==== Sys2Proof/Decode.lean ====
section
/-! DEFINITION. The decoder over the bits of spec/opcode_table.json. The part is a block: it takes commands, not words, and
no row of the table gives any bits, so no word spells a command. (The unit's own decoding, of Ethernet frames into farm
control messages and management requests, is in Machine/Frames.lean and Machine/Operands.lean.) -/

namespace Sys2Proof

/-- The command that the low `nbits` bits of `w` spell by the table's bits: none, as no row of the table gives bits. -/
def decodeTableWord (_nbits _w : Nat) : Option Instr := none

end Sys2Proof
end

