-- ==== Sys2Proof/Config.lean ====
section
/-! DEFINITION. What an implementation fixes and the spec leaves open: constants WITHOUT a body, so that nothing can be
proved of their values and a claim holds whatever they are. -/

namespace Sys2Proof.Config

/-- The station address "fixed at manufacture" (R169): its value is the part's own. See notes/assumptions/3.md. -/
opaque stationAddress : Mac

/-- The byte by which READ WAVE reports a wave record's state (R56, R74): R174 codes the step state and the move state,
but gives no code for FORMING and RUNNING. The argument says whether the record is RUNNING. See notes/assumptions/4.md. -/
opaque waveStateCode : Bool → Byte

/-- What the fields A, P, REL, MOV and SET of a step in READ WAVE (0 to 4 in that order) hold while they have no value, A while it is
pending among them: R174 gives each a presence bit and no value for its absence. See notes/assumptions/4.md. -/
opaque absentField : Nat → BitVec 16

/-- Whether the bit "A present" of a step's presence byte in READ WAVE is set while compare A is pending: R174 gives bit 0 to A present and
bit 1 to A pending, R57 has pending as neither absent nor a value, and no rule says how bit 0 then stands. DESIGN CHOICE: the bit is
free. See notes/assumptions/4.md. -/
opaque presentWhilePending : Bool

/-- What the step-count byte of a FORMING record in READ WAVE holds. R74 reports its step list absent; R174 codes an absent one-byte field
255 and gives no count for an absent list. DESIGN CHOICE: the byte is free. See notes/assumptions/4.md. -/
opaque absentStepCount : Byte

/-- Which of several steps that can release in one event releases first (R91: "in either order"). The argument is the
state's draw counter. See notes/assumptions/5.md. -/
opaque pickStep : Nat → Nat

/-- Whether a later step of a wave releases in the event in which an earlier step of that wave released, when that release meets the last
of its conditions. R85 makes its release test at the event in which the earlier step leaves HOLDING; R91 says that two steps of one wave
cannot release in the same event. DESIGN CHOICE: the answer is free. See notes/assumptions/25.md. -/
opaque waveReleasesAgain : Bool

/-- Whether a REPORT frame's forwarded copy is placed in U's queue before (`true`) or after the notices that its own tap
raises (R164, R166 give no order between the two). The argument is the draw counter. See notes/assumptions/6.md. -/
opaque forwardFirst : Nat → Bool

/-- The level of the MOTION output while RSTN is held low or the supply is absent (R140 says only that the release of
RSTN deasserts it). The argument is the draw counter. See notes/assumptions/7.md. -/
opaque motionWhileHeld : Nat → Bool

end Sys2Proof.Config
end

