-- ==== Sys2Proof/Machine/State.lean ====
section
/-! DEFINITION. The state of the Tulvar 1624 as plain data, block by block, with its values at the release of RSTN. Each
field names the rule of spec/ that gives it; INVENTORY.md lists them all with their reset values. -/

namespace Sys2Proof.Machine

/-! ### The names the spec gives to values -/

/-- The operating modes (R143); `returning` is the mode RETURN. -/
inductive Mode where
  | pass | steer | drain | returning
  deriving DecidableEq, Repr

/-- The mode cause (R143). -/
inductive ModeCause where
  | powerOn | restart | request | stop | storm | lapse | link | complete
  deriving DecidableEq, Repr

/-- The cause of the neutral context (R151). -/
inductive NeutralCause where
  | request | stop | storm | lapse
  deriving DecidableEq, Repr

/-- The lapse timer (R143, R158); EXPIRED keeps the count it expired at (R176). -/
inductive Lapse where
  | stopped
  | running (value : Nat)
  | expired (value : Nat)
  deriving DecidableEq, Repr

/-- The mark of the free-stream estimate (R31). -/
inductive Mark where
  | fresh | stale
  deriving DecidableEq, Repr

/-- The storm edge parameter (R156). -/
inductive StormEdge where
  | rising | falling | both
  deriving DecidableEq, Repr

/-- The hold polarity parameter (R132). -/
inductive Polarity where
  | highActive | lowActive
  deriving DecidableEq, Repr

/-- A turbine's value format (R12, R13, R14). -/
inductive Format where
  | d1 | d2 | b1
  deriving DecidableEq, Repr

/-- The state a turbine last reported (R8). -/
inductive TurbineState where
  | producing | standby | fault
  deriving DecidableEq, Repr

/-- The move state of a turbine (R122). -/
inductive MoveState where
  | idle | queued | moving | retarget
  deriving DecidableEq, Repr

/-- The class of a held slot (R123). -/
inductive SlotClass where
  | low | high
  deriving DecidableEq, Repr

/-- The step on whose behalf a turbine is queued or moving (R123): a LOW step by wave number and row, or the neutral
context's step at a row. -/
inductive Owner where
  | low (wave row : Nat)
  | neutral (row : Nat)
  deriving DecidableEq, Repr

/-- A move deadline (R5, R112): absent, pending at the divider, or a value of the count time base, kept with the relative
delay it was formed from (R113 judges it by the counts since the arrival). -/
inductive Deadline where
  | absent
  | pending
  | value (at' : BitVec 32) (delay : Nat)
  deriving DecidableEq, Repr

/-- The kinds of source (R21). -/
inductive SourceKind where
  | met | nacelle
  deriving DecidableEq, Repr

/-- The eight gate codes (R41). -/
inductive Gate where
  | time | settled | still | direction | steady | settledSteady | stillSteady | deadline
  deriving DecidableEq, Repr

/-- The deadline action of a plan entry (R49). -/
inductive Action where
  | release | skip
  deriving DecidableEq, Repr

/-- The hold-start mode of a plan (R40). -/
inductive HoldStart where
  | release | settle
  deriving DecidableEq, Repr

/-- The states of a LOW step (R75). -/
inductive StepState where
  | empty | waiting | holding | releasing | moving | done | skipped | cancelled
  deriving DecidableEq, Repr

/-- The states of a neutral step (R151). -/
inductive NeutralState where
  | releasing | moving | done
  deriving DecidableEq, Repr

/-- Compare A of a step (R57). -/
inductive CompareA where
  | absent
  | pending
  | value (a : Nat)
  deriving DecidableEq, Repr

/-- Why a step became SKIPPED (R87). -/
inductive SkipReason where
  | deadline | mask | neutral
  deriving DecidableEq, Repr

/-- What a freed slot is counted as by its owner (R94, R155). -/
inductive FreeKind where
  | settled | faulted | stalled
  deriving DecidableEq, Repr

/-- The result codes of a reply (R174). -/
inductive Result where
  | ok | mode | range | full | conflict | absent | storm | empty | unknown
  deriving DecidableEq, Repr

/-! ### Turbines and rows -/

/-- The configuration fields of a turbine entry (R1). -/
structure TurbineConfig where
  row : Nat
  column : Nat
  format : Format
  limit : Nat
  rate : Nat
  deriving DecidableEq, Repr

/-- The live record of a turbine (R5), with the load values. -/
structure Live where
  applied : Option Int := none
  moving : Bool := false
  state : TurbineState := .standby
  age : Nat := 65535
  commanded : Option Int := none
  move : MoveState := .idle
  slot : Option SlotClass := none
  owner : Option Owner := none
  target : Option Int := none
  deadline : Deadline := .absent
  stalled : Bool := false
  fault : Bool := false
  deriving DecidableEq, Repr

/-- A turbine entry (R1): its node address, its configuration and its live record. -/
structure Turbine where
  node : Nat
  config : TurbineConfig
  live : Live := {}
  deriving DecidableEq, Repr

/-- A row record (R18, R19): the member list in column order and the mask flag. -/
structure Row where
  members : List Nat := []
  mask : Bool := false
  deriving DecidableEq, Repr

/-! ### Observation -/

/-- A source-list entry with its reading (R21): last speed and last direction are both present or both absent. `fresh` is
the judgement of the last estimate step, which STATUS reports (R176). -/
structure Source where
  kind : SourceKind
  node : Nat
  reading : Option (Nat × Nat) := none
  age : Nat := 65535
  fresh : Bool := false
  deriving DecidableEq, Repr

/-- The accumulators of a primed unit (R28): 256 times the filtered speed and 256 times the filtered direction. -/
structure Filter where
  speed : Int
  direction : Int
  deriving DecidableEq, Repr

/-! ### Plans -/

/-- An entry of a plan's row order (R41). -/
structure PlanEntry where
  row : Nat
  spacing : Nat
  gate : Gate
  slack : Nat
  action : Action
  deriving DecidableEq, Repr

/-- A sector plan (R40, R41). -/
structure Plan where
  k : Nat
  holdStart : HoldStart
  hmin : Nat
  hmax : Nat
  entries : List PlanEntry
  deriving DecidableEq, Repr

/-! ### Waves -/

/-- A step entry of a wave (R57). `owesTest` and `owesDeadline` are the model's own: a count that brings the step to compare A sets the
first and one that brings it to compare P the second, until the step's own test at that count is taken (A_REACHED, P_REACHED); see
notes/assumptions/9.md. -/
structure WaveStep where
  row : Nat
  state : StepState
  spacing : Nat := 0
  hold : Nat := 0
  cmpA : CompareA := .absent
  cmpP : Option Nat := none
  gate : Gate
  action : Action
  forced : Bool := false
  needed : Nat := 0
  settled : Nat := 0
  stalled : Nat := 0
  faulted : Nat := 0
  superseded : Nat := 0
  cancelled : Nat := 0
  rel : Option Nat := none
  mov : Option Nat := none
  set : Option Nat := none
  owesTest : Bool := false
  owesDeadline : Bool := false
  deriving DecidableEq, Repr

/-- A wave record (R56). The target map is a list of node and target in ascending node order, one entry a node. -/
structure Wave where
  num : Nat
  set : Nat
  running : Bool := false
  sector : Option Nat := none
  targets : List (Nat × Int) := []
  steps : List WaveStep := []
  dRef : Option Nat := none
  uRef : Option Nat := none
  latchW : Bool := false
  latchG : Bool := false
  folds : Nat := 0
  drops : Nat := 0
  outside : Nat := 0
  deriving DecidableEq, Repr

/-! ### Neutral context -/

/-- A neutral step (R151). -/
structure NeutralStep where
  row : Nat
  state : NeutralState := .releasing
  needed : Nat := 0
  settled : Nat := 0
  stalled : Nat := 0
  faulted : Nat := 0
  cancelled : Nat := 0
  deriving DecidableEq, Repr

/-- The neutral context (R151), its steps in ascending row order. -/
structure Neutral where
  active : Bool := false
  cause : Option NeutralCause := none
  steps : List NeutralStep := []
  deriving DecidableEq, Repr

/-! ### Delay divider -/

/-- The requester of a divider entry (R105): the customer HOLD names a LOW step, the customer DEADLINE a turbine. -/
inductive Requester where
  | hold (wave row : Nat)
  | deadline (node : Nat)
  deriving DecidableEq, Repr

/-- An entry of the divider's request list (R105). -/
structure DivEntry where
  requester : Requester
  numerator : Nat
  divisor : Nat
  deriving DecidableEq, Repr

/-- The entry in service with its partial quotient and its discard mark (R105, R116). -/
structure Service where
  entry : DivEntry
  quotient : Nat := 0
  discard : Bool := false
  deriving DecidableEq, Repr

/-- The delay divider (R105): the request list, head first, and the service stage. -/
structure Divider where
  list : List DivEntry := []
  stage : Option Service := none
  deriving DecidableEq, Repr

/-! ### Line path and management -/

/-- A frame in an output queue, and whether it stands in an own-frame place (R167). -/
structure QueuedFrame where
  own : Bool
  frame : EthFrame
  deriving DecidableEq, Repr

/-- The counters that the line path keeps for each receiving port (R172). -/
structure PortCounters where
  forwarded : BitVec 32 := 0
  dropped : BitVec 32 := 0
  malformed : BitVec 32 := 0
  deriving DecidableEq, Repr

/-- The seven general counters (R183). -/
structure Counters where
  closed : BitVec 32 := 0
  done : BitVec 32 := 0
  folded : BitVec 32 := 0
  dropped : BitVec 32 := 0
  veers : BitVec 32 := 0
  stalls : BitVec 32 := 0
  skips : BitVec 32 := 0
  deriving DecidableEq, Repr

/-- The sixteen parameters with their reset values (R177). -/
structure Params where
  controlType : Nat := 39969
  budget : Nat := 4
  headroom : Nat := 4
  tolerance : Nat := 5
  quietTime : Nat := 20
  lapseTime : Nat := 0
  staleness : Nat := 50
  speedShift : Nat := 3
  directionShift : Nat := 4
  hysteresis : Nat := 30
  wThreshold : Nat := 50
  gThreshold : Nat := 15
  uCalm : Nat := 40
  margin : Nat := 100
  stormEdge : StormEdge := .rising
  polarity : Polarity := .highActive
  deriving DecidableEq, Repr

/-! ### The unit -/

/-- The state of the unit. The defaults are the values at the release of RSTN, for the levels that notes/assumptions/2.md
names. -/
structure State where
  /-- The bypass relay joins U to D: the supply is absent or RSTN is held low (R171). -/
  relayClosed : Bool := false
  /-- The STORM line's level, high or low (R156). -/
  stormLine : Bool := false
  /-- The YHOLD line's level, high or low (R132). -/
  yholdLine : Bool := false
  /-- The MOTION line, asserted or not (R140). -/
  motion : Bool := false
  /-- The node address sampled at the release of RSTN (R171). -/
  nodeAddr : Byte := 30
  /-- The station address, fixed at manufacture (R169). -/
  station : Mac := Config.stationAddress
  /-- The supervisor address (R169); the broadcast address until a MANAGE frame is delivered. -/
  supervisor : Mac := 0xFFFFFFFFFFFF
  /-- The parameter set (R177). -/
  params : Params := {}
  /-- The turbine table in ascending node order (R1). -/
  turbines : List Turbine := []
  /-- The row table (R18). -/
  rows : Vector Row 16 := Vector.replicate 16 {}
  /-- The source list in priority order (R21). -/
  sources : List Source := []
  /-- The filter accumulators, absent while the unit is unprimed (R28). -/
  filter : Option Filter := none
  /-- The mark of the estimate (R31). -/
  mark : Mark := .stale
  /-- The current sector (R32). -/
  sector : Option Nat := none
  /-- The plan slots (R39). -/
  plans : Vector (Option Plan) 24 := Vector.replicate 24 none
  /-- The wave queue, oldest first (R55). -/
  waves : List Wave := []
  /-- The wave counter (R55). -/
  waveCounter : Nat := 0
  /-- The quiet timer, stopped or running (R61). -/
  quiet : Option Nat := none
  /-- The neutral context (R151). -/
  neutral : Neutral := {}
  /-- The delay divider (R105). -/
  divider : Divider := {}
  /-- The count time base (R113). -/
  timeBase : BitVec 32 := 0
  /-- The HIGH request list, head first (R124). -/
  high : List Nat := []
  /-- The LOW request list, head first (R124). -/
  low : List Nat := []
  /-- The retarget list, head first (R138). -/
  retargets : List Nat := []
  /-- The number of LOW-class slots held (R120). -/
  lowSlots : Nat := 0
  /-- The number of HIGH-class slots held (R120). -/
  highSlots : Nat := 0
  /-- The operating mode (R143). -/
  mode : Mode := .pass
  /-- The mode cause (R143). -/
  cause : ModeCause := .powerOn
  /-- The storm condition (R156). -/
  storm : Bool := false
  /-- The lapse timer (R158). -/
  lapse : Lapse := .stopped
  /-- The link state of port U, up or down (R143). -/
  linkU : Bool := true
  /-- The link state of port D, up or down (R143). -/
  linkD : Bool := true
  /-- Port U's output queue, head first (R167). -/
  queueU : List QueuedFrame := []
  /-- Port D's output queue, head first (R167). -/
  queueD : List QueuedFrame := []
  /-- The counters of receiving port U (R172). -/
  countersU : PortCounters := {}
  /-- The counters of receiving port D (R172). -/
  countersD : PortCounters := {}
  /-- The discarded-management counter of port D (R172). -/
  discardedManage : BitVec 32 := 0
  /-- The own-frames-dropped counter of port U (R172). -/
  ownDropped : BitVec 32 := 0
  /-- The general counters (R183). -/
  counters : Counters := {}
  /-- The model's own: an estimate step fell due at a count and is not yet taken (R26). -/
  estimateDue : Bool := false
  /-- The model's own: the quiet timer reached the quiet time at a count and its expiry is not yet taken (R61, R63). -/
  quietDue : Bool := false
  /-- The model's own: the lapse timer reached the lapse time at a count and its expiry is not yet taken (R158). -/
  lapseDue : Bool := false
  /-- The model's own: how many free choices have been drawn from `Config` so far. -/
  draws : Nat := 0
  /-- The model's own: the commands that wait, first in, first out. -/
  pending : List Instr := []
  deriving DecidableEq, Repr

/-- The reasons for which the machine would stop with a fault. The spec gives the unit no fault stop: it answers every
event with a next state. -/
inductive Fault where
  deriving DecidableEq, Repr

/-- The reasons for which a command has no meaning. -/
inductive Refusal where
  /-- Raised by an arm of `exec` for a command that has no meaning yet. Safe: nothing can be proved of it. -/
  | notModelled (mnemonic : String)
  deriving DecidableEq, Repr

/-- The outcome of a command or a step. -/
abbrev Out := Host.Outcome State Fault Refusal

/-- The unit right after the release of RSTN, with the strap, line and link levels of notes/assumptions/2.md. -/
def State.reset : State := {}

end Sys2Proof.Machine
end

