-- ==== Sys2Proof/Machine/Bytes.lean ====
section
/-! DEFINITION. Byte order of the frame fields (R174: all multi-byte fields are big-endian), the codes of R174 for the
values that frames carry, and the frame check sequence. -/

namespace Sys2Proof.Machine

/-- A one-byte field (R174). -/
def byte (n : Nat) : Byte := BitVec.ofNat 8 n

/-- The value of two bytes in the order they stand in a frame (R174). -/
def be16 (hi lo : Byte) : BitVec 16 := hi ++ lo

/-- The value of four bytes in the order they stand in a frame (R174). -/
def be32 (b3 b2 b1 b0 : Byte) : BitVec 32 := b3 ++ b2 ++ b1 ++ b0

/-- A two-byte field (R174). -/
def bytes16 (w : BitVec 16) : List Byte := [w.extractLsb' 8 8, w.extractLsb' 0 8]

/-- A four-byte field (R174). -/
def bytes32 (w : BitVec 32) : List Byte :=
  [w.extractLsb' 24 8, w.extractLsb' 16 8, w.extractLsb' 8 8, w.extractLsb' 0 8]

/-- A six-byte field, as the station address in a STATUS reply (R174). -/
def bytes48 (w : BitVec 48) : List Byte := bytes16 (w.extractLsb' 32 16) ++ bytes32 (w.extractLsb' 0 32)

/-- A count in a two-byte field (R174). -/
def num16 (n : Nat) : List Byte := bytes16 (BitVec.ofNat 16 n)

/-- A count in a four-byte field (R174). -/
def num32 (n : Nat) : List Byte := bytes32 (BitVec.ofNat 32 n)

/-- An optional signed offset: −32768 when absent (R174). -/
def offset16 : Option Int → List Byte
  | some x => bytes16 (BitVec.ofInt 16 x)
  | none => bytes16 0x8000

/-- A flag as one byte, 1 or 0 (R176; DEDUCED for the flags of other replies: notes/assumptions/15.md). -/
def flag (b : Bool) : Byte := if b then 1 else 0

/-- An optional one-byte name: 255 when absent (R174). -/
def optByte : Option Nat → Byte
  | some n => byte n
  | none => 255

/-- An optional two-byte value: 65535 when absent, as D_ref and U_ref (R174). -/
def optRef : Option Nat → List Byte
  | some n => num16 n
  | none => bytes16 0xFFFF

/-- The saturating two-byte counters and ages: a count that stops at 65535. -/
def sat16 (n : Nat) : Nat := min 65535 n

/-! ### Codes (R174) -/

/-- Mode codes (R174). -/
def Mode.code : Mode → Nat
  | .pass => 0 | .steer => 1 | .drain => 2 | .returning => 3

/-- Mode cause codes (R174). -/
def ModeCause.code : ModeCause → Nat
  | .powerOn => 0 | .restart => 1 | .request => 2 | .stop => 3
  | .storm => 4 | .lapse => 5 | .link => 6 | .complete => 7

/-- Neutral cause codes, "as the mode cause" (R174). -/
def NeutralCause.code : NeutralCause → Nat
  | .request => 2 | .stop => 3 | .storm => 4 | .lapse => 5

/-- Result codes (R174). -/
def Result.code : Result → Nat
  | .ok => 0 | .mode => 1 | .range => 2 | .full => 3 | .conflict => 4
  | .absent => 5 | .storm => 6 | .empty => 7 | .unknown => 8

/-- Format codes (R174). -/
def Format.code : Format → Nat
  | .d1 => 1 | .d2 => 2 | .b1 => 3

/-- The format that a code names, if any (R174). -/
def Format.ofCode (c : Byte) : Option Format :=
  if c = 1 then some .d1 else if c = 2 then some .d2 else if c = 3 then some .b1 else none

/-- The source kind that a code names, if any (R174). -/
def SourceKind.ofCode (c : Byte) : Option SourceKind :=
  if c = 1 then some .met else if c = 2 then some .nacelle else none

/-- Gate codes (R174). -/
def Gate.code : Gate → Nat
  | .time => 0 | .settled => 1 | .still => 2 | .direction => 3
  | .steady => 4 | .settledSteady => 5 | .stillSteady => 6 | .deadline => 7

/-- The gate that a code names, if any (R174). -/
def Gate.ofCode (c : Byte) : Option Gate :=
  match c.toNat with
  | 0 => some .time | 1 => some .settled | 2 => some .still | 3 => some .direction
  | 4 => some .steady | 5 => some .settledSteady | 6 => some .stillSteady | 7 => some .deadline
  | _ => none

/-- Deadline action codes (R174). -/
def Action.code : Action → Nat
  | .release => 0 | .skip => 1

/-- The deadline action that a code names, if any (R174). -/
def Action.ofCode (c : Byte) : Option Action :=
  if c = 0 then some .release else if c = 1 then some .skip else none

/-- Hold-start mode codes (R174). -/
def HoldStart.code : HoldStart → Nat
  | .release => 0 | .settle => 1

/-- The hold-start mode that a code names, if any (R174). -/
def HoldStart.ofCode (c : Byte) : Option HoldStart :=
  if c = 0 then some .release else if c = 1 then some .settle else none

/-- Turbine state codes (R174). -/
def TurbineState.code : TurbineState → Nat
  | .producing => 0 | .standby => 1 | .fault => 2

/-- The state that a REPORT's state field names: producing for 0, standby for 1, fault for any other value (R8). -/
def TurbineState.ofReport (c : Byte) : TurbineState :=
  if c = 0 then .producing else if c = 1 then .standby else .fault

/-- Move state codes (R174). -/
def MoveState.code : MoveState → Nat
  | .idle => 0 | .queued => 1 | .moving => 2 | .retarget => 3

/-- Step state codes (R174). -/
def StepState.code : StepState → Nat
  | .empty => 0 | .waiting => 1 | .holding => 2 | .releasing => 3
  | .moving => 4 | .done => 5 | .skipped => 6 | .cancelled => 7

/-- A neutral step's state under the step state codes (R174). DEDUCED: notes/assumptions/15.md. -/
def NeutralState.code : NeutralState → Nat
  | .releasing => 3 | .moving => 4 | .done => 5

/-- Skip reason codes (R174). -/
def SkipReason.code : SkipReason → Nat
  | .deadline => 1 | .mask => 2 | .neutral => 3

/-- Storm edge encodings (R177). -/
def StormEdge.code : StormEdge → Nat
  | .rising => 0 | .falling => 1 | .both => 2

/-- Hold polarity encodings (R177). -/
def Polarity.code : Polarity → Nat
  | .highActive => 0 | .lowActive => 1

/-- An owner in a turbine record or a stall notice: its kind, then its wave number, 0 when the owner is neutral or absent
(R174). -/
def ownerBytes : Option Owner → List Byte
  | some (.low w _) => [0, byte w]
  | some (.neutral _) => [1, 0]
  | none => [255, 0]

/-! ### Frame check sequence -/

/-- One bit of the Ethernet CRC-32 register, least significant bit first. -/
def crcBit (c : Nat) : Nat := if c % 2 = 1 then (c / 2) ^^^ 0xEDB88320 else c / 2

/-- One byte into the CRC-32 register. -/
def crcByte (c : Nat) (b : Byte) : Nat :=
  crcBit (crcBit (crcBit (crcBit (crcBit (crcBit (crcBit (crcBit (c ^^^ b.toNat))))))))

/-- The Ethernet CRC-32 of a frame's bytes (R165), with the polynomial, bit order and complements of IEEE 802.3. PRESUMED:
notes/assumptions/8.md. -/
def crc32 (bs : List Byte) : BitVec 32 :=
  BitVec.ofNat 32 ((bs.foldl crcByte 0xFFFFFFFF) ^^^ 0xFFFFFFFF)

/-- The frame check sequence that belongs to a frame's addresses, type and payload (R165). -/
def checkSequence (dst src : Mac) (etype : BitVec 16) (payload : List Byte) : BitVec 32 :=
  crc32 (bytes48 dst ++ bytes48 src ++ bytes16 etype ++ payload)

/-- A frame with its check sequence computed over it (R165). -/
def sealFrame (dst src : Mac) (etype : BitVec 16) (payload : List Byte) : EthFrame :=
  ⟨dst, src, etype, payload, checkSequence dst src etype payload⟩

/-- The Ethernet check of R162: the frame's check sequence is the right one. -/
def frameGood (f : EthFrame) : Bool := f.fcs == checkSequence f.dst f.src f.etype f.payload

end Sys2Proof.Machine
end

