-- ==== Sys2Proof/Machine/Frames.lean ====
section
/-! DEFINITION. Farm control frames: how an arriving frame is classified (R162, R163), and how the unit's own frames and the
rewritten SETPOINT frames are laid out (R165, R169, R174). -/

namespace Sys2Proof.Machine

/-- A payload padded with zero bytes to 46 bytes, the Ethernet minimum (R165). -/
def pad46 (p : List Byte) : List Byte := p ++ List.replicate (46 - p.length) 0

/-- The eight header bytes of a farm control frame of version 2 (R174). -/
def headerBytes (kind : Nat) (a : Addr) (length : Nat) : List Byte :=
  [2, byte kind, a.dest, a.src, a.set, a.flags] ++ num16 length

/-- A farm control frame of version 2 of a kind, built and sealed (R169, R174). PRESUMED: an own frame is padded to the Ethernet minimum as
R165 pads a rewritten one (notes/assumptions/8.md). -/
def controlFrame (controlType kind : Nat) (a : Addr) (body : List Byte) : EthFrame :=
  sealFrame a.ethDst a.ethSrc (BitVec.ofNat 16 controlType)
    (pad46 (headerBytes kind a body.length ++ body))

/-- The bytes of a SETPOINT body (R174). -/
def itemBytes (items : List Item) : List Byte :=
  items.flatMap fun i => [i.node, i.quantity] ++ bytes16 i.value

/-- The items of a SETPOINT body (R174). -/
def itemsOf : List Byte → List Item
  | n :: q :: hi :: lo :: rest => ⟨n, q, be16 hi lo⟩ :: itemsOf rest
  | _ => []

/-- The bytes of a REPORT body (R174). -/
def reportBytes (r : ReportBody) : List Byte :=
  bytes16 r.offset ++ [r.motion, r.state] ++ bytes16 r.speed ++ bytes16 r.direction

/-- The bytes of a MET body (R174). -/
def metBytes (m : MetBody) : List Byte :=
  bytes16 m.speed ++ bytes16 m.direction ++ [m.quality]

/-- What the classification of an arriving frame decides (R162): `foreign` frames are forwarded unchanged, `passing` are
well-formed REPLY and NOTICE frames. -/
inductive Message where
  | foreign
  | malformed
  | setpoint (addr : Addr) (items : List Item)
  | report (addr : Addr) (body : ReportBody)
  | met (addr : Addr) (body : MetBody)
  | manage (addr : Addr) (code tag : Byte) (fields : List Byte)
  | passing
  deriving DecidableEq, Repr

/-- Steps 5 and 6 of R162: the body is checked against the kind as R163 gives. -/
def classifyBody (kind : Nat) (a : Addr) (body : List Byte) : Message :=
  match kind with
  | 1 => if body.length % 4 = 0 then .setpoint a (itemsOf body) else .malformed
  | 2 =>
    match body with
    | o1 :: o0 :: m :: st :: s1 :: s0 :: d1 :: d0 :: _ =>
      .report a ⟨be16 o1 o0, m, st, be16 s1 s0, be16 d1 d0⟩
    | _ => .malformed
  | 3 =>
    match body with
    | s1 :: s0 :: d1 :: d0 :: q :: _ => .met a ⟨be16 s1 s0, be16 d1 d0, q⟩
    | _ => .malformed
  | 4 =>
    match body with
    | code :: tag :: fields => .manage a code tag fields
    | _ => .malformed
  | 5 => if 3 ≤ body.length then .passing else .malformed
  | 6 => if 1 ≤ body.length then .passing else .malformed
  | _ => .malformed

/-- Steps 2 to 6 of R162 under a control frame type. DEDUCED: the type field is compared as it stands (notes/assumptions/23.md). -/
def classify (controlType : Nat) (f : EthFrame) : Message :=
  if f.etype.toNat ≠ controlType then .foreign
  else
    match f.payload with
    | version :: kind :: dest :: src :: set :: flags :: l1 :: l0 :: rest =>
      if version ≠ 2 then .foreign
      else if 1024 < (be16 l1 l0).toNat ∨ rest.length < (be16 l1 l0).toNat then .malformed
      else classifyBody kind.toNat ⟨f.dst, f.src, dest, src, set, flags⟩
        (rest.take (be16 l1 l0).toNat)
    | _ => .malformed

/-- A supervisor frame (R158): control frame type, version 2, a complete header, source node 0. -/
def fromSupervisor (controlType : Nat) (f : EthFrame) : Bool :=
  f.etype.toNat == controlType &&
    match f.payload with
    | version :: _ :: _ :: src :: _ :: _ :: _ :: _ :: _ => version == 2 && src == 0
    | _ => false

/-- A SETPOINT frame left with the items `left` of the `count` it held (R165): the header's length field is rewritten, the
remaining items keep their order and values, the payload is padded to 46 bytes and the check sequence is computed anew. DEDUCED: the bytes
beyond the body stay (notes/assumptions/13.md). -/
def rewriteSetpoint (f : EthFrame) (count : Nat) (left : List Item) : EthFrame :=
  sealFrame f.dst f.src f.etype
    (pad46 (f.payload.take 6 ++ num16 (4 * left.length) ++ itemBytes left ++
      f.payload.drop (8 + 4 * count)))

/-! ### Notices -/

/-- A notice with its fields (R174). -/
inductive Notice where
  | waveClosed (wave set sector steps outside : Nat)
  | waveFolded (wave set folded dropped : Nat)
  | waveDone (wave set : Nat) (states counts : List Nat)
  | stepSkipped (wave row : Nat) (reason : SkipReason)
  | turbineStalled (node row : Nat) (owner : Option Owner) (target applied : Option Int) (moving : Bool)
  | veer (old new cancelled : Nat)
  | uncovered (wave set : Nat) (sector : Option Nat) (targets : Nat)
  | mode (mode : Mode) (cause : ModeCause)
  | link (port : Port) (up : Bool)
  deriving DecidableEq, Repr

/-- The body of a NOTICE frame: the notice kind and its fields (R174). -/
def Notice.body : Notice → List Byte
  | .waveClosed w st sec n o => [1, byte w, byte st, byte sec, byte n, byte o]
  | .waveFolded w st f d => [2, byte w, byte st] ++ num16 f ++ num16 d
  | .waveDone w st states counts =>
    [3, byte w, byte st] ++ states.map byte ++ counts.flatMap num16
  | .stepSkipped w r reason => [4, byte w, byte r, byte reason.code]
  | .turbineStalled n r o t a m =>
    [5, byte n, byte r] ++ ownerBytes o ++ offset16 t ++ offset16 a ++ [flag m]
  | .veer old new n => [6, byte old, byte new, byte n]
  | .uncovered w st sec n => [7, byte w, byte st, optByte sec, byte n]
  | .mode m c => [8, byte m.code, byte c.code]
  | .link p up => [9, (match p with | .u => 0 | .d => 1), flag up]

end Sys2Proof.Machine
end

