-- ==== Sys2Proof/Machine/Ops.lean ====
section
/-! DEFINITION. The named operations over the unit's state that every block shares: looking up and changing a turbine's live
record, a row, a wave, a step; the divider's list; the slots and the MOTION line; the output queues with their places, the
replies and the notices. -/

namespace Sys2Proof.Machine

/-! ### Turbines and rows (chapter 1) -/

/-- The entry at a node address (R1). -/
def State.turbine? (s : State) (node : Nat) : Option Turbine := s.turbines.find? fun t => t.node == node

/-- Changes the live record at a node address, and nothing of its entry (R5). -/
def State.updLive (s : State) (node : Nat) (g : Live → Live) : State :=
  { s with turbines := s.turbines.map fun t => if t.node = node then { t with live := g t.live } else t }

/-- The row record of a row (R18). -/
def State.row (s : State) (r : Nat) : Row := (s.rows[r]?).getD {}

/-- The member list of a row, in column order (R18). -/
def State.members (s : State) (r : Nat) : List Nat := (s.row r).members

/-- The mask flag of a row (R19). -/
def State.masked (s : State) (r : Nat) : Bool := (s.row r).mask

/-- Changes the record of a row (R18, R19). -/
def State.updRow (s : State) (r : Nat) (g : Row → Row) : State :=
  { s with rows := s.rows.setIfInBounds r (g (s.row r)) }

/-- Sets or clears the mask flag of a row (R19). -/
def State.setMask (s : State) (r : Nat) (b : Bool) : State := s.updRow r fun x => { x with mask := b }

/-- The live record of a turbine as it becomes IDLE: owner, slot class and deadline absent, the target kept (R122, R126). -/
def Live.toIdle (l : Live) : Live := { l with move := .idle, slot := none, owner := none, deadline := .absent }

/-- The owner of a node's turbine (R123). -/
def State.ownerOf (s : State) (node : Nat) : Option Owner := (s.turbine? node).bind fun t => t.live.owner

/-! ### Observation (chapter 2) -/

/-- The filtered speed U_f: the accumulator shifted right by 8 (R29); 0 while unprimed, where no rule reads it. -/
def State.uf (s : State) : Nat := (s.filter.map fun f => (f.speed / 256).toNat).getD 0

/-- The filtered direction D_f: the accumulator shifted right by 8 (R30); 0 while unprimed, where no rule reads it. -/
def State.df (s : State) : Nat := (s.filter.map fun f => (f.direction / 256).toNat).getD 0

/-- A difference of directions brought into −1800 to +1799 (R30, R36). -/
def wrapDir (x : Int) : Int := (x + 1800) % 3600 - 1800

/-! ### Plans, waves and steps (chapters 3, 4 and 5) -/

/-- The plan of a sector's slot (R39). -/
def State.plan? (s : State) (sector : Nat) : Option Plan := (s.plans[sector]?).join

/-- The record with a wave number (R56). -/
def State.wave? (s : State) (num : Nat) : Option Wave := s.waves.find? fun w => w.num == num

/-- Changes the record with a wave number. -/
def State.updWave (s : State) (num : Nat) (g : Wave → Wave) : State :=
  { s with waves := s.waves.map fun w => if w.num = num then g w else w }

/-- The step of a record at a row (R57). -/
def Wave.step? (w : Wave) (r : Nat) : Option WaveStep := w.steps.find? fun st => st.row == r

/-- Changes the step of a record at a row. -/
def Wave.updStep (w : Wave) (r : Nat) (g : WaveStep → WaveStep) : Wave :=
  { w with steps := w.steps.map fun st => if st.row = r then g st else st }

/-- The step named by a wave number and a row (R59). -/
def State.step? (s : State) (num r : Nat) : Option WaveStep := (s.wave? num).bind fun w => w.step? r

/-- Changes the step named by a wave number and a row. -/
def State.updStep (s : State) (num r : Nat) (g : WaveStep → WaveStep) : State :=
  s.updWave num fun w => w.updStep r g

/-- The FORMING record, which is the youngest when there is one (R55). -/
def State.forming? (s : State) : Option Wave := s.waves.find? fun w => !w.running

/-- The plan a running wave closed under: that of the wave's own sector (R39). -/
def State.planOf (s : State) (w : Wave) : Option Plan := w.sector.bind s.plan?

/-- The plan of the wave with a number. -/
def State.planOfNum (s : State) (num : Nat) : Option Plan := (s.wave? num).bind s.planOf

/-- The steps of RUNNING waves by wave number and row, oldest wave first and in step-list order (R98). -/
def State.stepKeys (s : State) : List (Nat × Nat) :=
  (s.waves.filter fun w => w.running).flatMap fun w => w.steps.map fun st => (w.num, st.row)

/-- A terminal step state (R75). -/
def StepState.terminal : StepState → Bool
  | .empty | .done | .skipped | .cancelled => true
  | .waiting | .holding | .releasing | .moving => false

/-- The steps of a list before the one at a row. -/
def stepsBefore (r : Nat) (steps : List WaveStep) : List WaveStep := steps.takeWhile fun st => st.row != r

/-- The steps of a list after the one at a row. -/
def stepsAfter (r : Nat) (steps : List WaveStep) : List WaveStep := (steps.dropWhile fun st => st.row != r).tail

/-- The step at a row is not EMPTY, so that it can have a predecessor and a successor (R43). -/
def Wave.linked (w : Wave) (r : Nat) : Bool := (w.step? r).any fun st => st.state != .empty

/-- The predecessor of the step at a row: the nearest earlier step that is not EMPTY; an EMPTY step has none (R43). -/
def Wave.predecessor (w : Wave) (r : Nat) : Option WaveStep :=
  if w.linked r then (stepsBefore r w.steps).reverse.find? fun st => st.state != .empty else none

/-- The successor of the step at a row: the nearest later step that is not EMPTY; an EMPTY step has none (R43). -/
def Wave.successor (w : Wave) (r : Nat) : Option WaveStep :=
  if w.linked r then (stepsAfter r w.steps).find? fun st => st.state != .empty else none

/-! ### Delay divider (chapter 6) -/

/-- A request is placed: at once into service when the stage is idle and the list empty, else at the tail of the list
(R106). -/
def Divider.place (d : Divider) (e : DivEntry) : Divider :=
  match d.stage, d.list with
  | none, [] => { d with stage := some ⟨e, 0, false⟩ }
  | _, l => { d with list := l ++ [e] }

/-- A requester's live entry is withdrawn: removed from the list (R115), or marked for discard when it is in service
(R116). -/
def Divider.withdraw (d : Divider) (q : Requester) : Divider :=
  { list := d.list.filter fun e => e.requester != q
    stage := d.stage.map fun v => if v.entry.requester = q then { v with discard := true } else v }

/-- Places a request at the divider (R106). -/
def State.place (s : State) (e : DivEntry) : State := { s with divider := s.divider.place e }

/-- Withdraws a requester's live entry from the divider (R115, R116). -/
def State.withdraw (s : State) (q : Requester) : State := { s with divider := s.divider.withdraw q }

/-- Clears the divider at a RESTART request or loss of the D link: the list is emptied and an entry in service is discarded
at its arrival (R118). -/
def State.clearDivider (s : State) : State :=
  { s with divider := { list := [], stage := s.divider.stage.map fun v => { v with discard := true } } }

/-! ### Slots (chapter 7) -/

/-- The slot count: LOW-class and HIGH-class slots together (R120). -/
def State.slots (s : State) : Nat := s.lowSlots + s.highSlots

/-- Takes a slot of a class and asserts MOTION (R130, R140). -/
def State.takeSlot (s : State) (c : SlotClass) : State :=
  { s with
    lowSlots := match c with | .low => s.lowSlots + 1 | .high => s.lowSlots
    highSlots := match c with | .low => s.highSlots | .high => s.highSlots + 1
    motion := true }

/-- Gives a slot of a class back and deasserts MOTION when none is left (R133, R140). -/
def State.giveSlot (s : State) (c : SlotClass) : State :=
  { s with
    lowSlots := match c with | .low => s.lowSlots - 1 | .high => s.lowSlots
    highSlots := match c with | .low => s.highSlots | .high => s.highSlots - 1
    motion := decide (0 < match c with
      | .low => s.lowSlots - 1 + s.highSlots
      | .high => s.lowSlots + (s.highSlots - 1)) }

/-- Moves one slot from LOW class to HIGH class, the slot count unchanged (R120, R137). DESIGN CHOICE: with no LOW slot, as in no state a
run reaches, nothing moves (notes/assumptions/20.md). -/
def State.shiftSlot (s : State) : State :=
  { s with lowSlots := s.lowSlots - 1, highSlots := s.highSlots + min 1 s.lowSlots }

/-- The yaw-hold line is active: its level equals the active level of the polarity parameter (R132). -/
def State.holdActive (s : State) : Bool :=
  match s.params.polarity with
  | .highActive => s.yholdLine
  | .lowActive => !s.yholdLine

/-! ### Output queues, replies and notices (chapters 9 and 10) -/

/-- The own frames in a queue (R167). -/
def ownFrames (q : List QueuedFrame) : Nat := q.countP fun f => f.own

/-- The forwarded frames in a queue (R167). -/
def forwardedFrames (q : List QueuedFrame) : Nat := q.countP fun f => !f.own

/-- The own-frame places of port D that are free (R127). -/
def State.freePlaces (s : State) : Nat := 8 - ownFrames s.queueD

/-- Forwards a frame received on a port to the other port's queue: placed and counted, or dropped and counted, as a
forwarded place is free (R167). -/
def State.forward (s : State) (received : Port) (f : EthFrame) : State :=
  match received with
  | .u =>
    if forwardedFrames s.queueD < 24 then
      { s with
        queueD := s.queueD ++ [⟨false, f⟩]
        countersU := { s.countersU with forwarded := s.countersU.forwarded + 1 } }
    else { s with countersU := { s.countersU with dropped := s.countersU.dropped + 1 } }
  | .d =>
    if forwardedFrames s.queueU < 28 then
      { s with
        queueU := s.queueU ++ [⟨false, f⟩]
        countersD := { s.countersD with forwarded := s.countersD.forwarded + 1 } }
    else { s with countersD := { s.countersD with dropped := s.countersD.dropped + 1 } }

/-- Counts a malformed frame at its receiving port (R163, R172). -/
def State.countMalformed (s : State) : Port → State
  | .u => { s with countersU := { s.countersU with malformed := s.countersU.malformed + 1 } }
  | .d => { s with countersD := { s.countersD with malformed := s.countersD.malformed + 1 } }

/-- Places a REPLY or NOTICE in U's queue, or drops and counts it when the four own places are full (R167). -/
def State.sendU (s : State) (f : EthFrame) : State :=
  { s with
    queueU := if ownFrames s.queueU < 4 then s.queueU ++ [⟨true, f⟩] else s.queueU
    ownDropped := if ownFrames s.queueU < 4 then s.ownDropped else s.ownDropped + 1 }

/-- Places an own SETPOINT frame in D's queue (R130, R138); the arbiter does so only while an own place is free. -/
def State.sendD (s : State) (f : EthFrame) : State := { s with queueD := s.queueD ++ [⟨true, f⟩] }

/-- A NOTICE frame addressed to the supervisor address (R169, R184). -/
def State.noticeFrame (s : State) (n : Notice) : EthFrame :=
  controlFrame s.params.controlType 6 ⟨s.supervisor, s.station, 0, s.nodeAddr, 0, 0⟩ n.body

/-- Builds a notice into U's output queue (R184). -/
def State.notify (s : State) (n : Notice) : State := s.sendU (s.noticeFrame n)

/-- A REPLY frame to the MANAGE frame of an envelope: the request code, the tag, the result code, and the result fields only
when the result is OK (R169, R174, R175). -/
def State.replyFrame (s : State) (e : Env) (code : Byte) (r : Result) (fields : List Byte) : EthFrame :=
  controlFrame s.params.controlType 5 ⟨e.ethSrc, s.station, e.src, s.nodeAddr, e.set, 0⟩
    ([code, e.tag, byte r.code] ++ if r = .ok then fields else [])

/-- Builds the reply to a request into U's output queue (R175). -/
def State.reply (s : State) (e : Env) (code : Byte) (r : Result) (fields : List Byte) : State :=
  s.sendU (s.replyFrame e code r fields)

/-- The unit's own SETPOINT frame to a turbine: one yaw item, LAST set (R131, R169). -/
def State.setpointFrame (s : State) (node set : Nat) (value : BitVec 16) : EthFrame :=
  controlFrame s.params.controlType 1
    ⟨0xFFFFFFFFFFFF, s.station, byte node, s.nodeAddr, byte set, 1⟩
    ([byte node, 1] ++ bytes16 value)

/-! ### General counters (R183) -/

/-- Changes the general counters. -/
def State.tally (s : State) (g : Counters → Counters) : State := { s with counters := g s.counters }

/-! ### Free choices -/

/-- Chooses one of several candidates that the spec leaves in either order (R91). A single candidate needs no choice and
draws none. -/
def State.choose (s : State) : List (Nat × Nat) → Option ((Nat × Nat) × State)
  | [] => none
  | [k] => some (k, s)
  | k :: ks => some (((k :: ks)[Config.pickStep s.draws % (ks.length + 1)]?).getD k, { s with draws := s.draws + 1 })

end Sys2Proof.Machine
end

