-- ==== Sys2Proof/Machine/Operands.lean ====
section
/-! DEFINITION. The operand forms: the three value formats of a yaw offset (R12 to R15), and the fields of a management
request as its bytes give them (R174, R175). -/

namespace Sys2Proof.Machine

/-! ### Value formats (section 1.4) -/

/-- Saturation to −300 to +300 (R12, R13, R14). -/
def sat300 (x : Int) : Int := max (-300) (min 300 x)

/-- A tenth of a value rounded to the nearest whole number, a half away from zero (R13). -/
def roundTenth (x : Int) : Int := if 0 ≤ x then (x + 5) / 10 else -((-x + 5) / 10)

/-- A received value in a format, converted to 0.1° and saturated (R12, R13, R14). -/
def Format.receive (f : Format) (v : BitVec 16) : Int :=
  match f with
  | .d1 => sat300 v.toInt
  | .d2 => sat300 (roundTenth v.toInt)
  | .b1 => sat300 ((v.toNat : Int) - 32768)

/-- An offset written as a command in a format (R12, R13, R14). -/
def Format.command (f : Format) (x : Int) : BitVec 16 :=
  match f with
  | .d1 => BitVec.ofInt 16 x
  | .d2 => BitVec.ofInt 16 (10 * x)
  | .b1 => BitVec.ofInt 16 (32768 + x)

/-- The target a taken yaw item gives: converted as a report, then clamped to the entry's offset limit (R15). -/
def TurbineConfig.itemTarget (c : TurbineConfig) (v : BitVec 16) : Int :=
  max (-(c.limit : Int)) (min (c.limit : Int) (c.format.receive v))

/-! ### Management requests (R174, R175) -/

/-- A management request with its fields as they stand in the frame. `mode` and `mask` carry the code or operation byte. -/
inductive Request where
  | status
  | setParam (number : Byte) (value : BitVec 32)
  | getParam (number : Byte)
  | loadTurbine (req : TurbineReq)
  | dropTurbine (node : Byte)
  | loadSources (number : Byte) (entries : List SourceReq)
  | loadPlan (req : PlanReq)
  | dropPlan (sector : Byte)
  | readTurbine (first number : Byte)
  | readRow (row : Byte)
  | readWave (position first : Byte)
  | readNeutral
  | readPlan (sector : Byte)
  | readCounts
  | mode (code : Byte)
  | neutral (rows : BitVec 16)
  | mask (rows : BitVec 16) (operation : Byte)
  | restart
  deriving DecidableEq, Repr

/-- What the first two steps of R175 find in a request's code and field bytes. -/
inductive Reading where
  | unknown
  | short
  | request (r : Request)
  deriving DecidableEq, Repr

/-- The whole source entries in the field bytes (R174). -/
def sourceEntries : List Byte → List SourceReq
  | k :: n :: rest => ⟨k, n⟩ :: sourceEntries rest
  | _ => []

/-- The whole plan entries in the field bytes (R174). -/
def planEntries : List Byte → List EntryReq
  | r :: s1 :: s0 :: g :: l1 :: l0 :: a :: rest => ⟨r, be16 s1 s0, g, be16 l1 l0, a⟩ :: planEntries rest
  | _ => []

/-- Steps 1 and 2 of R175: the code is one of the eighteen, and the body reaches the last field of fixed size that the
request names. Bytes beyond the last field read are ignored. -/
def readRequest (code : Byte) (fields : List Byte) : Reading :=
  match code.toNat, fields with
  | 1, _ => .request .status
  | 2, n :: v3 :: v2 :: v1 :: v0 :: _ => .request (.setParam n (be32 v3 v2 v1 v0))
  | 2, _ => .short
  | 3, n :: _ => .request (.getParam n)
  | 3, _ => .short
  | 4, n :: r :: c :: f :: l1 :: l0 :: y1 :: y0 :: _ => .request (.loadTurbine ⟨n, r, c, f, be16 l1 l0, be16 y1 y0⟩)
  | 4, _ => .short
  | 5, n :: _ => .request (.dropTurbine n)
  | 5, _ => .short
  | 6, n :: rest => .request (.loadSources n (sourceEntries rest))
  | 6, _ => .short
  | 7, sec :: k1 :: k0 :: h :: a1 :: a0 :: b1 :: b0 :: n :: rest =>
    .request (.loadPlan ⟨sec, be16 k1 k0, h, be16 a1 a0, be16 b1 b0, n, planEntries rest⟩)
  | 7, _ => .short
  | 8, sec :: _ => .request (.dropPlan sec)
  | 8, _ => .short
  | 9, first :: n :: _ => .request (.readTurbine first n)
  | 9, _ => .short
  | 10, r :: _ => .request (.readRow r)
  | 10, _ => .short
  | 11, p :: first :: _ => .request (.readWave p first)
  | 11, _ => .short
  | 12, _ => .request .readNeutral
  | 13, sec :: _ => .request (.readPlan sec)
  | 13, _ => .short
  | 14, _ => .request .readCounts
  | 15, m :: _ => .request (.mode m)
  | 15, _ => .short
  | 16, r1 :: r0 :: _ => .request (.neutral (be16 r1 r0))
  | 16, _ => .short
  | 17, r1 :: r0 :: op :: _ => .request (.mask (be16 r1 r0) op)
  | 17, _ => .short
  | 18, _ => .request .restart
  | _, _ => .unknown

/-- The request code (R174). -/
def Request.code : Request → Byte
  | .status => 1 | .setParam .. => 2 | .getParam .. => 3 | .loadTurbine .. => 4 | .dropTurbine .. => 5
  | .loadSources .. => 6 | .loadPlan .. => 7 | .dropPlan .. => 8 | .readTurbine .. => 9 | .readRow .. => 10
  | .readWave .. => 11 | .readNeutral => 12 | .readPlan .. => 13 | .readCounts => 14 | .mode .. => 15
  | .neutral .. => 16 | .mask .. => 17 | .restart => 18

/-- The bytes of a plan entry (R174). -/
def entryBytes (e : EntryReq) : List Byte :=
  [e.row] ++ bytes16 e.spacing ++ [e.gate] ++ bytes16 e.slack ++ [e.action]

/-- The field bytes of a request, as its sender lays them out (R174). -/
def Request.fields : Request → List Byte
  | .status | .readNeutral | .readCounts | .restart => []
  | .setParam n v => [n] ++ bytes32 v
  | .getParam n => [n]
  | .loadTurbine q => [q.node, q.row, q.column, q.format] ++ bytes16 q.limit ++ bytes16 q.rate
  | .dropTurbine n => [n]
  | .loadSources n es => [n] ++ es.flatMap fun e => [e.kind, e.node]
  | .loadPlan q =>
    [q.sector] ++ bytes16 q.k ++ [q.holdStart] ++ bytes16 q.hmin ++ bytes16 q.hmax ++ [q.count] ++
      q.entries.flatMap entryBytes
  | .dropPlan sec => [sec]
  | .readTurbine first n => [first, n]
  | .readRow r => [r]
  | .readWave p first => [p, first]
  | .readPlan sec => [sec]
  | .mode m => [m]
  | .neutral rows => bytes16 rows
  | .mask rows op => bytes16 rows ++ [op]

/-- The MANAGE frame that carries a request to the unit (R170, R174). -/
def State.manageFrame (s : State) (e : Env) (code : Byte) (fields : List Byte) : EthFrame :=
  controlFrame s.params.controlType 4 ⟨e.ethDst, e.ethSrc, s.nodeAddr, e.src, e.set, e.flags⟩
    ([code, e.tag] ++ fields)

/-- The rows a 16-bit row set names, in ascending order: bit n names row n (R174). -/
def rowsOf (set : BitVec 16) : List Nat := (List.range 16).filter fun r => set.getLsbD r

end Sys2Proof.Machine
end

