-- ==== Sys2Proof/Machine/Flags.lean ====
section
/-! DEFINITION. The flags, tests and conditions of the rules: the settle and motion-needed tests (R16, R17), the latches and
gates (R36, R44 to R48), the release conditions (R82, R83), the storm condition (R156) and the grant condition (R128). -/

namespace Sys2Proof.Machine

/-! ### Turbine tests -/

/-- The settle test against a target (R16). -/
def Live.settledAt (l : Live) (tolerance : Nat) (target : Int) : Bool :=
  match l.applied with
  | some a => !l.moving && decide ((a - target).natAbs ≤ tolerance)
  | none => false

/-- The settle test against the record's own target; it fails when the target is absent (R10, R11). -/
def Live.settledAtTarget (l : Live) (tolerance : Nat) : Bool :=
  match l.target with
  | some t => l.settledAt tolerance t
  | none => false

/-- The motion-needed test against a wave's target (R17), for a member whose FAULT flag is clear. -/
def Live.needsMotion (l : Live) (tolerance : Nat) (target : Int) : Bool :=
  match l.applied with
  | some a => decide (tolerance < (a - target).natAbs)
  | none => true

/-- The start value of a DEADLINE request: the applied offset, else the commanded offset, else 0 (R112). -/
def Live.startValue (l : Live) : Int := (l.applied.orElse fun _ => l.commanded).getD 0

/-- The move deadline of a MOVING turbine is reached: the time base has moved on from the arrival by at least the relative
delay, and by at least one count (R113). DEDUCED: judged against the delay kept with the value (notes/assumptions/11.md). -/
def Live.deadlineReached (l : Live) (timeBase : BitVec 32) : Bool :=
  l.move == .moving &&
    match l.deadline with
    | .value v d => decide (max 1 d ≤ (timeBase - (v - BitVec.ofNat 32 d)).toNat)
    | .absent | .pending => false

/-! ### Steps and gates -/

/-- The step has reached A (R44). -/
def WaveStep.reachedA (st : WaveStep) : Bool :=
  match st.cmpA with
  | .value a => decide (a ≤ st.hold)
  | .absent | .pending => false

/-- The step has reached P (R44). -/
def WaveStep.reachedP (st : WaveStep) : Bool :=
  match st.cmpP with
  | some p => decide (p ≤ st.hold)
  | none => false

/-- The predecessor settled condition (R46); it holds for the first step that is not EMPTY. -/
def Wave.predecessorSettled (w : Wave) (r : Nat) : Bool :=
  match w.predecessor r with
  | some p => p.state == .done || p.state == .skipped
  | none => true

/-- The predecessor row still condition (R46); it holds for the first step that is not EMPTY. -/
def State.predecessorStill (s : State) (w : Wave) (r : Nat) : Bool :=
  match w.predecessor r with
  | some p => (s.members p.row).all fun n => match s.turbine? n with | some t => !t.live.moving | none => true
  | none => true

/-- The gate tests latch W (R48). -/
def Gate.testsW : Gate → Bool
  | .direction | .steady | .settledSteady | .stillSteady => true
  | .time | .settled | .still | .deadline => false

/-- The gate tests latch G (R48). -/
def Gate.testsG : Gate → Bool
  | .steady | .settledSteady | .stillSteady => true
  | .time | .settled | .still | .direction | .deadline => false

/-- The gate tests the predecessor settled condition (R48). -/
def Gate.testsSettled : Gate → Bool
  | .settled | .settledSteady => true
  | .time | .still | .direction | .steady | .stillSteady | .deadline => false

/-- The gate tests the predecessor row still condition (R48). -/
def Gate.testsStill : Gate → Bool
  | .still | .stillSteady => true
  | .time | .settled | .direction | .steady | .settledSteady | .deadline => false

/-- The gate of a step of a wave is satisfied (R45 to R48); DEADLINE is satisfied by no condition. -/
def State.gateSatisfied (s : State) (w : Wave) (st : WaveStep) : Bool :=
  st.gate != .deadline && st.reachedA &&
    (!st.gate.testsSettled || w.predecessorSettled st.row) &&
    (!st.gate.testsStill || s.predecessorStill w st.row) &&
    (!st.gate.testsW || !w.latchW) &&
    (!st.gate.testsG || !w.latchG)

/-- No wave older than the one with number `num` has a step at the row that is not terminal, and the neutral context has
none there in RELEASING or MOVING (R83). -/
def State.rowFree (s : State) (num r : Nat) : Bool :=
  ((s.waves.takeWhile fun w => w.num != num).all fun w =>
      w.steps.all fun st => st.row != r || st.state.terminal) &&
    s.neutral.steps.all fun n => n.row != r || n.state == .done

/-- No earlier step of the wave is WAITING or HOLDING (R82, condition 5). -/
def Wave.inOrder (w : Wave) (r : Nat) : Bool :=
  (stepsBefore r w.steps).all fun st => st.state != .waiting && st.state != .holding

/-- The five release conditions of a HOLDING step (R82). -/
def State.canRelease (s : State) (num r : Nat) : Bool :=
  match s.wave? num with
  | none => false
  | some w =>
    w.running &&
      match w.step? r with
      | none => false
      | some st =>
        st.state == .holding && (st.forced || s.gateSatisfied w st) && s.mark == .fresh &&
          s.rowFree num r && !s.masked r && w.inOrder r

/-- A HOLDING step that has reached P and whose deadline action has not acted (R86). -/
def State.owesAction (s : State) (num r : Nat) : Bool :=
  match s.wave? num with
  | none => false
  | some w =>
    w.running &&
      match w.step? r with
      | none => false
      | some st => st.state == .holding && st.reachedP && !st.forced

/-- The step counts account for every member taken on (R90). -/
def WaveStep.complete (st : WaveStep) : Bool :=
  st.needed == st.settled + st.stalled + st.faulted + st.superseded + st.cancelled

/-- The neutral step's counts account for every member taken on (R154). -/
def NeutralStep.complete (n : NeutralStep) : Bool :=
  n.needed == n.settled + n.stalled + n.faulted + n.cancelled

/-! ### Storm condition -/

/-- The storm condition taken from the line's level (R156). -/
def stormFromLevel (edge : StormEdge) (level : Bool) : Bool :=
  match edge with
  | .rising => level
  | .falling => !level
  | .both => false

/-! ### Grant condition -/

/-- The grant condition, less its first term that the retarget list is empty (R128): the head of the list granted from, with
its class. -/
def State.grantable (s : State) : Option (Nat × SlotClass) :=
  if s.freePlaces = 0 then none
  else
    match s.high, s.low with
    | n :: _, _ => if s.slots < s.params.budget + s.params.headroom then some (n, .high) else none
    | [], n :: _ => if s.slots < s.params.budget ∧ s.holdActive = false then some (n, .low) else none
    | [], [] => none

end Sys2Proof.Machine
end

