-- ==== Sys2Proof/Machine/Steps.lean ====
section
/-! DEFINITION. Wave propagation (chapter 5): holds, triggers, releases, skips, cancellations and completion. -/

namespace Sys2Proof.Machine

/-! ### Holding and triggering -/

/-- A step enters HOLDING: its counter is 0, compare A is pending, and its hold-time request is placed with N and D as they
stand (R76, R77, R110). -/
def State.enterHolding (s : State) (num r : Nat) : State :=
  match s.wave? num with
  | none => s
  | some w =>
    match w.step? r with
    | none => s
    | some st =>
      let k := ((s.planOf w).map fun p => p.k).getD 0
      (s.updStep num r fun x =>
        { x with state := .holding, hold := 0, cmpA := .pending, cmpP := none, owesTest := false, owesDeadline := false }).place
        ⟨.hold num r, 102400 * st.spacing, k * max s.uf s.params.uCalm⟩

/-- The trigger of the successor: it enters HOLDING if it is WAITING, and otherwise nothing happens (R81). -/
def State.trigger (s : State) (num r : Nat) : State :=
  match (s.wave? num).bind fun w => w.successor r with
  | some nxt => if nxt.state = .waiting then s.enterHolding num nxt.row else s
  | none => s

/-- The hold-start mode of a wave's plan (R42). -/
def State.holdStartOf (s : State) (num : Nat) : HoldStart :=
  ((s.planOfNum num).map fun p => p.holdStart).getD .release

/-- A step leaves HOLDING for good with its compare A pending: the request is withdrawn and compare A becomes absent
(R79). -/
def State.dropHold (s : State) (num r : Nat) : State :=
  match s.step? num r with
  | some st =>
    if st.cmpA = .pending then
      (s.withdraw (.hold num r)).updStep num r fun x => { x with cmpA := .absent }
    else s
  | none => s

/-- A step enters DONE: SET is taken, and it triggers its successor if it has not triggered (R96). It has triggered before
only at its first grant, which took REL, in hold-start mode RELEASE (R80). -/
def State.enterDone (s : State) (num r : Nat) : State :=
  match s.step? num r with
  | none => s
  | some st =>
    let s1 := s.updStep num r fun x => { x with state := .done, set := some x.hold, owesTest := false, owesDeadline := false }
    if s.holdStartOf num = .release ∧ st.rel.isSome then s1 else s1.trigger num r

/-! ### Completion (R71) -/

/-- A RUNNING wave all of whose steps are terminal (R71). -/
def Wave.finished (w : Wave) : Bool := w.running && w.steps.all fun st => st.state.terminal

/-- The number of a wave's steps in a state. -/
def Wave.inState (w : Wave) (x : StepState) : Nat := w.steps.countP fun st => st.state == x

/-- The WAVE_DONE notice of a wave (R71). -/
def Wave.doneNotice (w : Wave) : Notice :=
  .waveDone w.num w.set
    [w.inState .done, w.inState .skipped, w.inState .cancelled, w.inState .empty]
    [(w.steps.map fun st => st.needed).sum, (w.steps.map fun st => st.settled).sum,
      (w.steps.map fun st => st.stalled).sum, (w.steps.map fun st => st.faulted).sum,
      (w.steps.map fun st => st.superseded).sum, (w.steps.map fun st => st.cancelled).sum]

/-- The completion of a wave: the record is removed, the waves done counter advances, and the WAVE_DONE notice is built
(R71). -/
def State.completeWave (s : State) (w : Wave) : State :=
  (({ s with waves := s.waves.filter fun x => x.num != w.num }).tally fun c => { c with done := c.done + 1 }).notify
    w.doneNotice

/-- Completion is judged: every finished wave completes, the oldest first (R71). -/
def State.completeWaves (s : State) : State :=
  (s.waves.filter Wave.finished).foldl State.completeWave s

/-! ### Skipping and cancelling -/

/-- A step becomes SKIPPED: its pending request is withdrawn, it triggers its successor, the skips counter advances, the
STEP_SKIPPED notice is built, and completion is judged (R87). -/
def State.skipStep (s : State) (num r : Nat) (reason : SkipReason) : State :=
  ((((((s.dropHold num r).updStep num r fun x => { x with state := .skipped, owesTest := false, owesDeadline := false }).trigger num r).tally
    fun c => { c with skips := c.skips + 1 }).notify (.stepSkipped num r reason))).completeWaves

/-- The WAITING and HOLDING steps at a row, by wave number, oldest wave first (R97, R99). -/
def State.unreleasedAt (s : State) (r : Nat) : List Nat :=
  (s.waves.filter fun w => w.running && w.steps.any fun st =>
    st.row == r && (st.state == .waiting || st.state == .holding)).map fun w => w.num

/-- Every LOW step at a row that is WAITING or HOLDING becomes SKIPPED, the oldest wave's first (R97, R99). -/
def State.skipAt (s : State) (r : Nat) (reason : SkipReason) : State :=
  (s.unreleasedAt r).foldl (fun s num => s.skipStep num r reason) s

/-- A WAITING or HOLDING step becomes CANCELLED; it does not trigger (R98). -/
def State.cancelStep (s : State) (num r : Nat) : State :=
  (s.dropHold num r).updStep num r fun x => { x with state := .cancelled, owesTest := false, owesDeadline := false }

/-- The nodes of the LOW list owned by a step. -/
def State.queuedFor (s : State) (num r : Nat) : List Nat :=
  s.low.filter fun n => s.ownerOf n == some (.low num r)

/-- A turbine owned by the step holds a slot (R92). -/
def State.holdsSlotFor (s : State) (num r : Nat) : Bool :=
  s.turbines.any fun t => t.live.owner == some (.low num r) && (t.live.move == .moving || t.live.move == .retarget)

/-- A RELEASING step loses its queued requests: the turbines become IDLE without owner and are counted cancelled (R98,
R126); the step then becomes MOVING or CANCELLED. -/
def State.unqueueStep (s : State) (num r : Nat) : State :=
  let nodes := s.queuedFor num r
  let s1 := nodes.foldl (fun s n => s.updLive n Live.toIdle) { s with low := s.low.filter fun n => !nodes.contains n }
  s1.updStep num r fun x =>
    { x with
      cancelled := x.cancelled + nodes.length
      state := if s1.holdsSlotFor num r then .moving else .cancelled }

/-- What a veer event and the entry to DRAIN do to one step (R98, R101). -/
def State.veerStep (s : State) (k : Nat × Nat) : State :=
  match s.step? k.1 k.2 with
  | none => s
  | some st =>
    match st.state with
    | .waiting | .holding => s.cancelStep k.1 k.2
    | .releasing => s.unqueueStep k.1 k.2
    | .empty | .moving | .done | .skipped | .cancelled => s

/-- The unreleased steps of every RUNNING wave are cancelled, oldest wave first (R98, R101). -/
def State.cancelUnreleased (s : State) : State := s.stepKeys.foldl State.veerStep s

/-- The first part of the entry to RETURN at one step: WAITING and HOLDING become CANCELLED (R102). -/
def State.returnStep (s : State) (k : Nat × Nat) : State :=
  match s.step? k.1 k.2 with
  | none => s
  | some st => if st.state = .waiting ∨ st.state = .holding then s.cancelStep k.1 k.2 else s

/-- The number of CANCELLED steps in the queue. -/
def State.cancelledSteps (s : State) : Nat := (s.waves.map fun w => w.inState .cancelled).sum

/-! ### Release -/

/-- A turbine request enters the tail of the LOW list: the record becomes QUEUED with the step as owner and the wave's
target (R89, R124). -/
def State.queueLow (s : State) (num r node : Nat) (target : Int) : State :=
  let s1 := s.updLive node fun l => { l with move := .queued, owner := some (.low num r), target := some target }
  { s1 with low := s1.low ++ [node] }

/-- One member of the row at the release of its step (R89). -/
def State.releaseMember (targets : List (Nat × Int)) (num r : Nat) (s : State) (node : Nat) : State :=
  match targets.find? fun p => p.1 == node with
  | none => s
  | some (_, target) =>
    match s.turbine? node with
    | none => s
    | some t =>
      if t.live.fault then
        s.updStep num r fun x => { x with needed := x.needed + 1, faulted := x.faulted + 1 }
      else if t.live.needsMotion s.params.tolerance target then
        (s.updStep num r fun x => { x with needed := x.needed + 1 }).queueLow num r node target
      else s.updStep num r fun x => { x with needed := x.needed + 1, settled := x.settled + 1 }

/-- The latches and references at a release: an unforced release clears the latches its gate tests and renews both
references if it tests any (R37, R48, R88). -/
def Wave.releaseLatches (w : Wave) (st : WaveStep) (df uf : Nat) : Wave :=
  if st.forced = false ∧ (st.gate.testsW || st.gate.testsG) = true then
    { w with
      latchW := w.latchW && !st.gate.testsW
      latchG := w.latchG && !st.gate.testsG
      dRef := some df
      uRef := some uf }
  else w

/-- The release of a step, one event: latches, forced mark, members, state (R88, R89, R90). -/
def State.releaseStep (s : State) (num r : Nat) : State :=
  match s.wave? num with
  | none => s
  | some w =>
    match w.step? r with
    | none => s
    | some st =>
      let s1 := (s.updWave num fun x => x.releaseLatches st s.df s.uf).updStep num r fun x =>
        { x with forced := false, owesTest := false, owesDeadline := false }
      let s2 := (s.members r).foldl (State.releaseMember w.targets num r) s1
      if s2.queuedFor num r = [] then s2.enterDone num r
      else s2.updStep num r fun x => { x with state := .releasing }

/-- The deadline action of a step that has reached P (R86): RELEASE sets the forced mark, SKIP makes the step SKIPPED. -/
def State.deadlineAction (s : State) (num r : Nat) : State :=
  match s.step? num r with
  | none => s
  | some st =>
    match st.action with
    | .release => s.updStep num r fun x => { x with forced := true }
    | .skip => s.skipStep num r .deadline

/-- A count that brought this step to A is still to be taken at it (R85). -/
def State.owesTest (s : State) (k : Nat × Nat) : Bool :=
  match s.step? k.1 k.2 with
  | some st => st.owesTest
  | none => false

/-- A count that brought this step to P is still to be taken at it (R86). -/
def State.owesDeadline (s : State) (k : Nat × Nat) : Bool :=
  match s.step? k.1 k.2 with
  | some st => st.owesDeadline
  | none => false

/-- A step of a wave may release in an event in which steps of the waves `released` have released (R91). DESIGN CHOICE: whether a wave that
has released in the event releases again is free, since R85 and R91 differ (notes/assumptions/25.md). -/
def mayRelease (released : List Nat) (num : Nat) : Bool := !released.contains num || Config.waveReleasesAgain

/-- The steps that can release now, in an event in which steps of the waves `released` have released, but for those that have not taken the
count that brought them to A. A step that was past A before the count that brought it to P is tested at every event of R85, that count
taken or not (notes/assumptions/9.md). -/
def State.releasable (s : State) (released : List Nat) : List (Nat × Nat) :=
  s.stepKeys.filter fun k => s.canRelease k.1 k.2 && !s.owesTest k && mayRelease released k.1

/-- The steps whose deadline action is to act now, but for those that have not taken the count that brought them to A or to P. -/
def State.actionable (s : State) : List (Nat × Nat) :=
  s.stepKeys.filter fun k => s.owesAction k.1 k.2 && !s.owesTest k && !s.owesDeadline k

/-- The release tests of an event, from the waves of which a step has released in it: while a step can release, one does, whole (R85,
R91); when none can, the deadline action of a step that has reached P acts and the tests are made again (R86). Whether a second step of
one wave releases in the event is free (`mayRelease`); one held back so releases at a later event. -/
def State.releaseLoop : Nat → List Nat → State → State
  | 0, _, s => s
  | fuel + 1, released, s =>
    match s.choose (s.releasable released) with
    | some (k, s1) => State.releaseLoop fuel (k.1 :: released) (s1.releaseStep k.1 k.2).completeWaves
    | none =>
      match s.choose s.actionable with
      | some (k, s1) => State.releaseLoop fuel released (s1.deadlineAction k.1 k.2)
      | none => s

/-- The release tests of an event in which steps of the waves `released` have released. Each step is released at most once, forced at most
once and skipped at most once, so three rounds a step are enough. -/
def State.releaseTests (s : State) (released : List Nat) : State :=
  State.releaseLoop (3 * s.stepKeys.length + 1) released s

/-! ### What the arbiter tells a LOW owner -/

/-- A grant to a turbine of a RELEASING step: REL is taken at the first one, which triggers the successor in hold-start mode
RELEASE, and the grant of the last queued request makes the step MOVING (R92, R93). -/
def State.grantedLow (s : State) (num r : Nat) : State :=
  match s.step? num r with
  | none => s
  | some st =>
    let s1 :=
      if st.rel.isNone then
        let s0 := s.updStep num r fun x => { x with rel := some x.hold }
        if s.holdStartOf num = .release then s0.trigger num r else s0
      else s
    if st.state = .releasing ∧ s1.queuedFor num r = [] then
      s1.updStep num r fun x => { x with state := .moving }
    else s1

/-- A freed turbine is counted by its step, and a MOVING step that is complete enters DONE (R94). -/
def State.freedLow (s : State) (num r : Nat) (kind : FreeKind) : State :=
  let s1 := s.updStep num r fun x =>
    match kind with
    | .settled => { x with settled := x.settled + 1 }
    | .faulted => { x with faulted := x.faulted + 1 }
    | .stalled => { x with stalled := x.stalled + 1 }
  match s1.step? num r with
  | some st => if st.state = .moving ∧ st.complete = true then (s1.enterDone num r).completeWaves else s1
  | none => s1

/-- A moving report from an owned turbine captures MOV at a RELEASING or MOVING step that has none (R95). -/
def State.movedLow (s : State) (num r : Nat) : State :=
  s.updStep num r fun x =>
    if (x.state = .releasing ∨ x.state = .moving) ∧ x.mov.isNone then { x with mov := some x.hold } else x

end Sys2Proof.Machine
end

