-- ==== Sys2Proof/Machine/Arbiter.lean ====
section
/-! DEFINITION. The release arbiter (chapter 7): grants, retarget frames, the freeing of slots, and what it tells the owners
of the turbines, neutral owners among them (R155). -/

namespace Sys2Proof.Machine

/-! ### Neutral steps, as the arbiter tells them (R155) -/

/-- Changes the neutral step at a row. -/
def State.updNeutral (s : State) (r : Nat) (g : NeutralStep → NeutralStep) : State :=
  { s with neutral := { s.neutral with steps := s.neutral.steps.map fun n => if n.row = r then g n else n } }

/-- The neutral step at a row (R151). -/
def State.neutralStep? (s : State) (r : Nat) : Option NeutralStep := s.neutral.steps.find? fun n => n.row == r

/-- The context is active while it holds a step that is not DONE; when its last step is DONE its steps are cleared and its
cause becomes absent (R151). -/
def State.judgeNeutral (s : State) : State :=
  if s.neutral.steps.all fun n => n.state == .done then { s with neutral := {} }
  else { s with neutral := { s.neutral with active := true } }

/-- A request of the neutral step at a row is in the HIGH list. -/
def State.neutralQueued (s : State) (r : Nat) : Bool := s.high.any fun n => s.ownerOf n == some (.neutral r)

/-- A grant to a turbine of a neutral step: RELEASING becomes MOVING when no request of it remains in the HIGH list
(R155). -/
def State.grantedNeutral (s : State) (r : Nat) : State :=
  if s.neutralQueued r then s
  else s.updNeutral r fun n => if n.state = .releasing then { n with state := .moving } else n

/-- A freed turbine is counted by its neutral step, and a MOVING step that is complete enters DONE (R155). -/
def State.freedNeutral (s : State) (r : Nat) (kind : FreeKind) : State :=
  (s.updNeutral r fun n =>
    let n1 := match kind with
      | .settled => { n with settled := n.settled + 1 }
      | .faulted => { n with faulted := n.faulted + 1 }
      | .stalled => { n with stalled := n.stalled + 1 }
    if n1.state = .moving ∧ n1.complete = true then { n1 with state := .done } else n1).judgeNeutral

/-! ### Telling the owner (R123) -/

/-- The owner is told of a grant (R130). -/
def State.tellGranted (s : State) : Option Owner → State
  | some (.low w r) => s.grantedLow w r
  | some (.neutral r) => s.grantedNeutral r
  | none => s

/-- The owner is told to count a freed turbine (R133 to R135). -/
def State.tellFreed (s : State) (o : Option Owner) (kind : FreeKind) : State :=
  match o with
  | some (.low w r) => s.freedLow w r kind
  | some (.neutral r) => s.freedNeutral r kind
  | none => s

/-- The owner is told of a moving report; a neutral owner takes no action (R136). -/
def State.tellMoved (s : State) : Option Owner → State
  | some (.low w r) => s.movedLow w r
  | some (.neutral _) | none => s

/-! ### Grants and retarget frames -/

/-- The DEADLINE request of a turbine for a new target, with the start value that stands before the commanded offset is
written (R111, R112). -/
def Turbine.deadlineRequest (t : Turbine) (target : Int) : DivEntry :=
  ⟨.deadline t.node, 100 * (target - t.live.startValue).natAbs, t.config.rate⟩

/-- The set number of a grant's frame: the owning wave's for a LOW owner, 0 for a neutral owner (R131). -/
def State.ownerSet (s : State) : Option Owner → Nat
  | some (.low w _) => ((s.wave? w).map fun x => x.set).getD 0
  | some (.neutral _) | none => 0

/-- A grant of the head of a list: the request leaves its list, the frame is placed, the record becomes MOVING with its slot,
the commanded offset becomes the target, the deadline becomes pending with its request placed, and the owner is told
(R130). -/
def State.grantNode (s : State) (node : Nat) (cls : SlotClass) : State :=
  let s0 := match cls with
    | .high => { s with high := s.high.tail }
    | .low => { s with low := s.low.tail }
  match s0.turbine? node with
  | none => s0
  | some t =>
    let target := t.live.target.getD 0
    let s1 := s0.sendD (s0.setpointFrame node (s0.ownerSet t.live.owner) (t.config.format.command target))
    let s2 := (s1.updLive node fun l =>
      { l with move := .moving, slot := some cls, commanded := some target, deadline := .pending }).takeSlot cls
    (s2.place (t.deadlineRequest target)).tellGranted t.live.owner

/-- The head of the retarget list gets a free own place: its target-0 frame is placed and the turbine becomes MOVING in its
HIGH slot (R138). -/
def State.retargetNode (s : State) (node : Nat) : State :=
  let s0 := { s with retargets := s.retargets.tail }
  match s0.turbine? node with
  | none => s0
  | some t =>
    let s1 := s0.sendD (s0.setpointFrame node 0 (t.config.format.command 0))
    let s2 := s1.updLive node fun l =>
      { l with move := .moving, slot := some .high, commanded := some 0, deadline := .pending }
    s2.place (t.deadlineRequest 0)

/-- The arbiter's next frame, if it can place one: the retarget list is served first, and the grant condition is judged only
while that list is empty (R128, R138). -/
def State.arbiterStep (s : State) : Option State :=
  match s.retargets with
  | n :: _ => if s.freePlaces = 0 then none else some (s.retargetNode n)
  | [] => s.grantable.map fun p => s.grantNode p.1 p.2

/-- The arbiter places frames while it can (R129, R138). -/
def State.arbiterLoop : Nat → State → State
  | 0, s => s
  | fuel + 1, s =>
    match s.arbiterStep with
    | some s1 => State.arbiterLoop fuel s1
    | none => s

/-- The retarget list is served and the grant condition judged, at the end of an event (R129, R138). Every frame placed takes
the head of one of the three lists, so as many rounds as they hold entries are enough. -/
def State.serveArbiter (s : State) : State :=
  State.arbiterLoop (s.retargets.length + s.high.length + s.low.length) s

/-! ### Freeing slots -/

/-- A slot is freed: the turbine becomes IDLE, a pending DEADLINE request is withdrawn, and the owner counts the turbine
(R133 to R135). -/
def State.freeSlot (s : State) (node : Nat) (kind : FreeKind) : State :=
  match s.turbine? node with
  | none => s
  | some t =>
    let s1 := (s.withdraw (.deadline node)).updLive node Live.toIdle
    let s2 := match t.live.slot with
      | some c => s1.giveSlot c
      | none => s1
    s2.tellFreed t.live.owner kind

/-- The events a tapped report is classified as, in MOVING and RETARGET (R10). -/
inductive ReportEvent where
  | fault | settle | moving | none
  deriving DecidableEq, Repr

/-- The classification of a report by the record as the report leaves it (R10). -/
def Live.classify (l : Live) (tolerance : Nat) : ReportEvent :=
  if l.state = .fault then .fault
  else if l.settledAtTarget tolerance then .settle
  else if l.moving then .moving
  else .none

/-- What the arbiter does with a report of a MOVING or RETARGET turbine (R133, R134, R136, R139). -/
def State.arbiterReport (s : State) (t : Turbine) : State :=
  match t.live.move, t.live.classify s.params.tolerance with
  | .moving, .fault => s.freeSlot t.node .faulted
  | .moving, .settle => s.freeSlot t.node .settled
  | .moving, .moving => s.tellMoved t.live.owner
  | .retarget, .fault =>
    ({ s with retargets := s.retargets.filter fun n => n != t.node }).freeSlot t.node .faulted
  | .moving, .none | .retarget, .settle | .retarget, .moving | .retarget, .none | .idle, _ | .queued, _ => s

/-- The expiry of a turbine's move deadline: the slot is freed, STALLED is set, the stalls counter advances, and the
TURBINE_STALLED notice is built (R135). DESIGN CHOICE: R135 gives its effects no order; they are taken as it lists them, so that a WAVE_DONE
which the owner's count brings about stands before the TURBINE_STALLED (notes/assumptions/26.md). -/
def State.stall (s : State) (t : Turbine) : State :=
  (((s.freeSlot t.node .stalled).updLive t.node fun l => { l with stalled := true }).tally
    fun c => { c with stalls := c.stalls + 1 }).notify
    (.turbineStalled t.node t.config.row t.live.owner t.live.target t.live.applied t.live.moving)

end Sys2Proof.Machine
end

