-- ==== Sys2Proof/Machine/NeutralContext.lean ====
section
/-! DEFINITION. The neutral context (section 8.3): how it gains steps, releases them and takes rows over. -/

namespace Sys2Proof.Machine

/-- A LOW owner counts a turbine superseded (R100). -/
def State.supersede (s : State) : Option Owner → State
  | some (.low w r) => s.updStep w r fun x => { x with superseded := x.superseded + 1 }
  | some (.neutral _) | none => s

/-- A member MOVING under a LOW-class slot is retargeted to 0 (R137). -/
def State.retarget (s : State) (t : Turbine) (r : Nat) : State :=
  let s1 := (s.withdraw (.deadline t.node)).supersede t.live.owner
  let s2 := (s1.updLive t.node fun l =>
    { l with
      move := .retarget, slot := some .high, owner := some (.neutral r), target := some 0, deadline := .absent }).shiftSlot
  { s2 with retargets := s2.retargets ++ [t.node] }

/-- A member QUEUED in the LOW list is moved to the tail of the HIGH list with target 0 (R125). -/
def State.moveToHigh (s : State) (t : Turbine) (r : Nat) : State :=
  let s1 := (s.supersede t.live.owner).updLive t.node fun l =>
    { l with owner := some (.neutral r), target := some 0 }
  { s1 with low := s1.low.filter fun n => n != t.node, high := s1.high ++ [t.node] }

/-- An IDLE member enters the tail of the HIGH list with target 0 (R124, R154). -/
def State.queueHigh (s : State) (t : Turbine) (r : Nat) : State :=
  let s1 := s.updLive t.node fun l =>
    { l with move := .queued, owner := some (.neutral r), target := some 0 }
  { s1 with high := s1.high ++ [t.node] }

/-- One member of the row at the release of its neutral step: it is counted needed and handled by the first line of R154 that
applies. -/
def State.neutralMember (r : Nat) (s : State) (node : Nat) : State :=
  match s.turbine? node with
  | none => s
  | some t =>
    let s1 := s.updNeutral r fun n => { n with needed := n.needed + 1 }
    match t.live.move, t.live.slot with
    | .moving, some .low => s1.retarget t r
    | .queued, _ => if s.low.contains node then s1.moveToHigh t r else s1
    | .idle, _ =>
      if t.live.fault then s1.updNeutral r fun n => { n with faulted := n.faulted + 1 }
      else if t.live.settledAt s.params.tolerance 0 then s1.updNeutral r fun n => { n with settled := n.settled + 1 }
      else s1.queueHigh t r
    | .moving, some .high | .moving, none | .retarget, _ => s1

/-- The waves, oldest first, with a LOW step at the row in RELEASING or MOVING (R100). -/
def State.releasedAt (s : State) (r : Nat) : List Nat :=
  (s.waves.filter fun w => w.running && w.steps.any fun st =>
    st.row == r && (st.state == .releasing || st.state == .moving)).map fun w => w.num

/-- The neutral steps with a fresh step at the row in its place in row order (R151, R152). -/
def withFreshStep (r : Nat) (steps : List NeutralStep) : List NeutralStep :=
  (steps.filter fun n => decide (n.row < r)) ++ { row := r } :: steps.filter fun n => decide (r < n.row)

/-- A fresh neutral step is created at a row and released: the LOW steps there that wait or hold are skipped, the members are
handled in column order, the LOW step that is releasing or moving becomes DONE, and the neutral step's state is decided
(R99, R100, R152, R154). -/
def State.freshNeutral (s : State) (r : Nat) : State :=
  let s1 := s.skipAt r .neutral
  let released := s1.releasedAt r
  let s2 := { s1 with neutral := { s1.neutral with steps := withFreshStep r s1.neutral.steps } }
  let s3 := (s2.members r).foldl (State.neutralMember r) s2
  let s4 := released.foldl (fun s num => s.enterDone num r) s3
  s4.updNeutral r fun n =>
    { n with state := if n.complete then .done else if s4.neutralQueued r then .releasing else .moving }

/-- The context gains a step at a named row, unless it keeps one there that is not DONE; the LOW steps there that wait or hold
are skipped either way (R99, R152). -/
def State.gainNeutral (s : State) (r : Nat) : State :=
  match s.neutralStep? r with
  | some n => if n.state = .done then s.freshNeutral r else s.skipAt r .neutral
  | none => s.freshNeutral r

/-- The cause names the latest event that named a row (R151). -/
def State.setNeutralCause (s : State) (c : NeutralCause) : State :=
  { s with neutral := { s.neutral with cause := some c } }

/-- A NEUTRAL request's rows, in ascending order: at each the mask is set before the gain, and completion is judged
(R153). -/
def State.neutralRows (s : State) (rows : List Nat) : State :=
  rows.foldl (fun s r => ((s.setMask r true).gainNeutral r).completeWaves) s

end Sys2Proof.Machine
end

