-- ==== Sys2Proof/Machine/ModeControl.lean ====
section
/-! DEFINITION. The mode controller (chapter 8): entries to the modes, their ends, the storm and lapse events, the loss of the D
link and the restart; and the end of an event, at which release tests, end conditions and grants are judged. -/

namespace Sys2Proof.Machine

/-- The mode changes with its cause; the MODE notice is built where the rule of the change says (R143, R145). -/
def State.setMode (s : State) (m : Mode) (c : ModeCause) : State := { s with mode := m, cause := c }

/-- The MODE notice of the mode and cause that stand (R145). -/
def State.notifyMode (s : State) : State := s.notify (.mode s.mode s.cause)

/-- The lapse timer is STOPPED (R158). -/
def State.stopLapse (s : State) : State := { s with lapse := .stopped, lapseDue := false }

/-- An end of DRAIN or RETURN: the mode becomes PASS with cause COMPLETE, the lapse timer stops, and the MODE notice is built
(R148, R150). -/
def State.endToPass (s : State) : State := ((s.setMode .pass .complete).stopLapse).notifyMode

/-- The end condition of DRAIN (R148). -/
def State.drainOver (s : State) : Bool := s.mode == .drain && s.waves.isEmpty && !s.neutral.active

/-- The end condition of RETURN (R150). -/
def State.returnOver (s : State) : Bool := s.mode == .returning && !s.neutral.active

/-- The end conditions of DRAIN and RETURN are judged (R148, R150). -/
def State.judgeEnd (s : State) : State :=
  if s.drainOver then s.endToPass
  else if s.returnOver then s.endToPass
  else s

/-- The end of an event in which steps of the waves `released` have released: the release tests are made (R85, R91), the end conditions are
judged (R148, R150), and the arbiter serves its retarget list and judges the grant condition (R129, R138). DEDUCED: this order
(notes/assumptions/16.md). -/
def State.settleAfter (s : State) (released : List Nat) : State := (s.releaseTests released).judgeEnd.serveArbiter

/-- The end of an event that has released no step of itself. -/
def State.settle (s : State) : State := s.settleAfter []

/-- The FORMING wave is discarded at the entry to DRAIN or RETURN, without notice, and the quiet timer stops (R72). -/
def State.discardForming (s : State) : State :=
  { s with waves := s.waves.filter fun w => w.running, quiet := none, quietDue := false }

/-- The entry to DRAIN (R147, R101): the FORMING wave is discarded, the steps are treated as at a veer, finished waves complete
oldest first, and the MODE notice is built. -/
def State.enterDrain (s : State) : State :=
  ((((s.setMode .drain .stop).discardForming).cancelUnreleased).completeWaves).notifyMode

/-- The entry to RETURN (R149, R102): the FORMING wave is discarded, WAITING and HOLDING steps are cancelled, every row gains a
neutral step in ascending order, every wave completes oldest first, and the MODE notice is built. -/
def State.enterReturn (s : State) (c : ModeCause) (n : NeutralCause) : State :=
  let s1 := (s.setMode .returning c).discardForming
  let s2 := s1.stepKeys.foldl State.returnStep s1
  let s3 := ((List.range 16).foldl State.gainNeutral (s2.setNeutralCause n)).judgeNeutral
  s3.completeWaves.notifyMode

/-- A storm event: it enters RETURN from STEER and DRAIN (R157). -/
def State.stormEvent (s : State) : State :=
  match s.mode with
  | .steer | .drain => (s.enterReturn .storm .storm).settle
  | .pass | .returning => s

/-- A change of the STORM line to a level, read by the storm edge parameter (R156). -/
def State.stormEdge (s : State) (level : Bool) : State :=
  let s1 := { s with stormLine := level }
  match s.params.stormEdge with
  | .both => State.stormEvent { s1 with storm := false }
  | edge =>
    let s2 := { s1 with storm := stormFromLevel edge level }
    if s2.storm && !s.storm then s2.stormEvent else s2

/-- The lapse timer expires with the count it reached, and in STEER and DRAIN the mode becomes RETURN (R158). -/
def State.lapseExpire (s : State) : State :=
  let s1 := match s.lapse with
    | .running v => { s with lapse := .expired v, lapseDue := false }
    | .stopped | .expired _ => { s with lapseDue := false }
  match s1.mode with
  | .steer | .drain => (s1.enterReturn .lapse .lapse).settle
  | .pass | .returning => s1

/-- A supervisor frame restarts the lapse timer from 0 outside PASS (R158). -/
def State.restartLapse (s : State) : State :=
  match s.mode with
  | .pass => s
  | .steer | .drain | .returning => { s with lapse := .running 0, lapseDue := false }

/-- What RESTART and the loss of the D link both clear: the waves, the quiet timer, the neutral context, the request and retarget
lists, the slots with MOTION, and the divider; a QUEUED, MOVING or RETARGET turbine becomes IDLE (R73, R142, R118, R151). -/
def State.clearSteering (s : State) : State :=
  { s.clearDivider with
    turbines := s.turbines.map fun t => { t with live := t.live.toIdle }
    waves := [], quiet := none, quietDue := false, neutral := {}
    high := [], low := [], retargets := [], lowSlots := 0, highSlots := 0, motion := false }

/-- The loss of the D link, one event (R159): the steps and waves, the neutral context, the lists, the slots, the divider and D's
output queue are cleared; a LINK notice is built; and outside PASS the mode becomes PASS with cause LINK. DEDUCED: the counts that the
cleared steps reach are lost with their records (R103) and are not formed (notes/assumptions/17.md). -/
def State.loseD (s : State) : State :=
  let s0 := s.clearSteering
  let s1 := State.notify { s0 with queueD := [], linkD := false } (.link .d false)
  match s.mode with
  | .pass => s1
  | .steer | .drain | .returning => ((s1.setMode .pass .link).stopLapse).notifyMode

/-- The unit is unprimed: the filters and the sector are absent, the mark is STALE and the freshness bits are clear (R28, R31,
R176). -/
def State.unprime (s : State) : State :=
  { s with
    filter := none, mark := .stale, sector := none
    sources := s.sources.map fun x => { x with fresh := false } }

/-- Every mask flag is cleared (R19). -/
def State.clearMasks (s : State) : State := (List.range 16).foldl (fun s r => s.setMask r false) s

/-- STALLED and FAULT are cleared in every live record (R6). -/
def State.clearFlags (s : State) : State :=
  { s with turbines := s.turbines.map fun t => { t with live := { t.live with stalled := false, fault := false } } }

/-- The effects of a RESTART request on each block, less its reply (R161). -/
def State.restartBlocks (s : State) : State :=
  let s1 := s.clearSteering.unprime.clearMasks.clearFlags
  (State.stopLapse (State.setMode { s1 with storm := stormFromLevel s.params.stormEdge s.stormLine }
    .pass .restart)).notifyMode

end Sys2Proof.Machine
end

