-- ==== Sys2Proof/Machine/DelayDivider.lean ====
section
/-! DEFINITION. The delay divider's service (chapter 6): the sixteen trials and the arrival of a result. -/

namespace Sys2Proof.Machine

/-- One trial at a bit value: the bit is kept if the product does not exceed the numerator (R108). -/
def trial (numerator divisor quotient bit : Nat) : Nat :=
  if (quotient + bit) * divisor ≤ numerator then quotient + bit else quotient

/-- The bit values of the sixteen trials, from the most significant quotient bit down (R108). -/
def trialBits : List Nat :=
  [32768, 16384, 8192, 4096, 2048, 1024, 512, 256, 128, 64, 32, 16, 8, 4, 2, 1]

/-- The quotient that the sixteen trials find from a partial quotient (R108). -/
def trials (numerator divisor quotient : Nat) : Nat := trialBits.foldl (trial numerator divisor) quotient

/-- The head of the list enters the idle service stage (R107). -/
def Divider.serve (d : Divider) : Divider :=
  match d.stage, d.list with
  | none, e :: rest => { list := rest, stage := some ⟨e, 0, false⟩ }
  | _, _ => d

/-- The compares of a HOLDING step are formed from the quotient (R78): A is the quotient brought into Hmin to Hmax, P is A plus the
slack held at 65535, absent when the slack is 0. -/
def WaveStep.formCompares (st : WaveStep) (quotient hmin hmax slack : Nat) : WaveStep :=
  let a := min hmax (max hmin quotient)
  { st with cmpA := .value a, cmpP := if 0 < slack then some (sat16 (a + slack)) else none }

/-- The slack of a plan's entry for a row (R42). -/
def Plan.slackAt (p : Plan) (r : Nat) : Nat :=
  ((p.entries.find? fun e => e.row == r).map fun e => e.slack).getD 0

/-- A HOLD result reaches a HOLDING step with compare A pending: the compares are formed and judged at once (R78, R109). -/
def State.deliverHold (s : State) (num r quotient : Nat) : State :=
  match s.step? num r, s.planOfNum num with
  | some st, some p =>
    if st.state = .holding ∧ st.cmpA = .pending then
      (s.updStep num r fun x => x.formCompares quotient p.hmin p.hmax (p.slackAt r)).settle
    else s
  | _, _ => s

/-- A DEADLINE result reaches a MOVING turbine with its deadline pending: the deadline becomes the time base plus the relative delay,
the quotient plus the move margin held at 65535 (R109, R112). -/
def State.deliverDeadline (s : State) (node quotient : Nat) : State :=
  match s.turbine? node with
  | some t =>
    if t.live.move = .moving ∧ t.live.deadline = .pending then
      let delay := sat16 (quotient + s.params.margin)
      s.updLive node fun l => { l with deadline := .value (s.timeBase + BitVec.ofNat 32 delay) delay }
    else s
  | none => s

/-- A result is delivered to its requester (R109). -/
def State.deliver (s : State) (q : Requester) (quotient : Nat) : State :=
  match q with
  | .hold w r => s.deliverHold w r quotient
  | .deadline n => s.deliverDeadline n quotient

/-- The arrival: the stage becomes idle, the new head enters service at once, and the quotient is delivered unless the entry is marked
for discard (R107, R109, R116). DEDUCED: all sixteen trials are taken at the arrival (notes/assumptions/21.md). -/
def State.arrival (s : State) : State :=
  match s.divider.stage with
  | none => s
  | some v =>
    let s1 := { s with divider := ({ s.divider with stage := none } : Divider).serve }
    if v.discard then s1
    else s1.deliver v.entry.requester (trials v.entry.numerator v.entry.divisor v.quotient)

end Sys2Proof.Machine
end

