-- ==== Sys2Proof/Machine/Intake.lean ====
section
/-! DEFINITION. The intake (chapter 4): gathering a set into the FORMING wave, its close, and folding. -/

namespace Sys2Proof.Machine

/-! ### Target maps -/

/-- Enters a target for a node, replacing one it already has, in ascending node order (R56, R60). -/
def enterTarget (node : Nat) (target : Int) : List (Nat × Int) → List (Nat × Int)
  | [] => [(node, target)]
  | p :: rest =>
    if node < p.1 then (node, target) :: p :: rest
    else if node = p.1 then (node, target) :: rest
    else p :: enterTarget node target rest

/-- An item is a taken item when its quantity code is 1 and its node has an entry (R58). -/
def State.takes (s : State) (i : Item) : Bool := i.quantity == 1 && (s.turbine? i.node.toNat).isSome

/-- The target of a taken item: its value converted from its node's format and clamped (R15). -/
def State.targetOf (s : State) (i : Item) : Int :=
  ((s.turbine? i.node.toNat).map fun t => t.config.itemTarget i.value).getD 0

/-- The taken items of a frame go into a wave's target map in the order of the frame (R60). -/
def State.gather (s : State) (num : Nat) (items : List Item) : State :=
  items.foldl (fun s i => s.updWave num fun w =>
    { w with targets := enterTarget i.node.toNat (s.targetOf i) w.targets }) s

/-! ### Opening (R59) -/

/-- The first wave number from the counter on that no record holds; four records hold at most four numbers (R59). -/
def freeNumber (used : List Nat) : Nat → Nat → Nat
  | 0, c => c
  | fuel + 1, c => if used.contains c then freeNumber used fuel ((c + 1) % 256) else c

/-- A FORMING wave is opened for a set number (R59). -/
def State.openWave (s : State) (set : Nat) : State × Nat :=
  let num := freeNumber (s.waves.map fun w => w.num) s.waves.length s.waveCounter
  ({ s with waves := s.waves ++ [{ num := num, set := set }], waveCounter := (num + 1) % 256 }, num)

/-! ### The close (R65 to R68) -/

/-- The state a plan entry's step is built in: EMPTY when its row is masked or no node in the target map is a member of it, WAITING
otherwise (R66). -/
def State.builtState (s : State) (targets : List (Nat × Int)) (r : Nat) : StepState :=
  if s.masked r || !((s.members r).any fun n => targets.any fun p => p.1 == n) then .empty else .waiting

/-- The step list of a wave from its plan's entries, with effective spacings (R57, R66, R67). `since` is absent before the first step
that is not EMPTY, and afterwards the sum of the spacings of the EMPTY steps since the last one that is not. -/
def State.buildSteps (s : State) (targets : List (Nat × Int)) : Option Nat → List PlanEntry → List WaveStep
  | _, [] => []
  | since, e :: rest =>
    match s.builtState targets e.row, since with
    | .empty, none =>
      { row := e.row, state := .empty, gate := e.gate, action := e.action } :: s.buildSteps targets none rest
    | .empty, some d =>
      { row := e.row, state := .empty, gate := e.gate, action := e.action } ::
        s.buildSteps targets (some (d + e.spacing)) rest
    | _, none =>
      { row := e.row, state := .waiting, gate := e.gate, action := e.action } :: s.buildSteps targets (some 0) rest
    | _, some d =>
      { row := e.row, state := .waiting, spacing := min 8191 (d + e.spacing), gate := e.gate, action := e.action } ::
        s.buildSteps targets (some 0) rest

/-- The node's row is in the plan's row order (R66). -/
def State.inOrderOf (s : State) (p : Plan) (node : Nat) : Bool :=
  match s.turbine? node with
  | some t => p.entries.any fun e => e.row == t.config.row
  | none => false

/-- The record as the close makes it (R35, R66, R68). -/
def State.closedWave (s : State) (w : Wave) (sector : Nat) (p : Plan) : Wave :=
  { w with
    running := true
    sector := some sector
    targets := w.targets.filter fun q => s.inOrderOf p q.1
    steps := s.buildSteps w.targets none p.entries
    dRef := some s.df
    uRef := some s.uf
    latchW := false
    latchG := false
    outside := w.targets.countP fun q => !s.inOrderOf p q.1 }

/-- The quiet timer stops (R61). -/
def State.stopQuiet (s : State) : State := { s with quiet := none, quietDue := false }

/-- The plan of the current sector, with the sector, if it is present and covered (R65). -/
def State.currentPlan (s : State) : Option (Nat × Plan) :=
  s.sector.bind fun sec => (s.plan? sec).map fun p => (sec, p)

/-- The FORMING wave closes: discarded with an UNCOVERED notice when the sector is absent or uncovered (R65); otherwise its steps are
built, it becomes RUNNING, its first step with work enters HOLDING, the waves closed counter advances, the WAVE_CLOSED notice is
built, and a wave without work completes at once (R66 to R68). -/
def State.closeForming (s : State) : State :=
  match s.forming? with
  | none => s
  | some w =>
    match s.currentPlan with
    | none =>
      State.notify { s with waves := s.waves.filter fun x => x.running, quiet := none, quietDue := false }
        (.uncovered w.num w.set s.sector w.targets.length)
    | some (sec, p) =>
      let closed := s.closedWave w sec p
      let s1 := (s.updWave w.num fun _ => closed).stopQuiet
      let s2 := match closed.steps.find? fun st => st.state != .empty with
        | some st => s1.enterHolding w.num st.row
        | none => s1
      ((s2.tally fun c => { c with closed := c.closed + 1 }).notify
        (.waveClosed w.num w.set sec (closed.steps.countP fun st => st.state != .empty) closed.outside)).completeWaves

/-! ### Folding (R69, R70) -/

/-- The youngest record (R55). -/
def State.youngest? (s : State) : Option Wave := s.waves.getLast?

/-- An item folds into a wave when the wave's step at its node's row is WAITING or HOLDING (R69). -/
def State.folds (s : State) (num : Nat) (i : Item) : Bool :=
  match s.turbine? i.node.toNat with
  | some t =>
    match s.step? num t.config.row with
    | some st => st.state == .waiting || st.state == .holding
    | none => false
  | none => false

/-- One taken item offered to the youngest wave: folded or dropped (R69). -/
def State.foldItem (num : Nat) (s : State) (i : Item) : State :=
  if s.folds num i then
    s.updWave num fun w =>
      { w with targets := enterTarget i.node.toNat (s.targetOf i) w.targets, folds := sat16 (w.folds + 1) }
  else s.updWave num fun w => { w with drops := sat16 (w.drops + 1) }

/-- The taken items of a frame fold into the youngest wave, with one WAVE_FOLDED notice and the two counters (R69, R70). -/
def State.foldItems (s : State) (set : Nat) (items : List Item) : State :=
  match s.youngest? with
  | none => s
  | some w =>
    let folded := items.countP (s.folds w.num)
    let dropped := items.length - folded
    ((items.foldl (State.foldItem w.num) s).tally fun c =>
      { c with
        folded := c.folded + BitVec.ofNat 32 folded
        dropped := c.dropped + BitVec.ofNat 32 dropped }).notify (.waveFolded w.num set folded dropped)

/-! ### One frame (R58) -/

/-- The taken items of a frame go into the FORMING wave with a number; the quiet timer restarts at the end of the frame, and a frame
with LAST then closes the wave (R60, R61, R62). -/
def State.takeInto (s : State) (num : Nat) (items : List Item) (last : Bool) : State :=
  let s1 := { s.gather num items with quiet := some 0, quietDue := false }
  if last then s1.closeForming else s1

/-- Where no wave is FORMING: the items open a wave while the queue holds fewer than four records, and fold otherwise (R58). -/
def State.openOrFold (s : State) (set : Nat) (items : List Item) (last : Bool) : State :=
  if s.waves.length < 4 then
    let o := s.openWave set
    o.1.takeInto o.2 items last
  else s.foldItems set items

/-- The taken items of one frame in STEER, as one arrival (R58, R64). -/
def State.intake (s : State) (set : Nat) (last : Bool) (items : List Item) : State :=
  match s.forming? with
  | some w => if w.set = set then s.takeInto w.num items last else s.closeForming.openOrFold set items last
  | none => s.openOrFold set items last

/-- The quiet timer's expiry closes the FORMING wave (R63). -/
def State.quietExpire (s : State) : State := State.closeForming { s with quietDue := false }

end Sys2Proof.Machine
end

