-- ==== Sys2Proof/Machine/Observation.lean ====
section
/-! DEFINITION. The observation unit (chapter 2): observations, the estimate step with its filters, sector selection, veer
events and the shift latches. -/

namespace Sys2Proof.Machine

/-- An observation from a node is taken by the source of its kind at that address, if the direction is in range; the speed is
clamped to 600 and the age becomes 0 (R23, R24). -/
def State.observe (s : State) (kind : SourceKind) (node speed direction : Nat) : State :=
  { s with sources := s.sources.map fun x =>
      if x.kind = kind ∧ x.node = node ∧ direction < 3600 then
        { x with reading := some (min 600 speed, direction), age := 0 }
      else x }

/-- A source is fresh while its age is less than the staleness; a source whose reading is absent is stale (R25). -/
def Source.isFresh (x : Source) (staleness : Nat) : Bool := x.reading.isSome && decide (x.age < staleness)

/-- Part 1 of the estimate step: freshness is judged (R26). -/
def State.judgeSources (s : State) : State :=
  { s with sources := s.sources.map fun x => { x with fresh := x.isFresh s.params.staleness } }

/-- The readings of the sources judged fresh, in list order. -/
def State.freshReadings (s : State) : List (Nat × Nat) :=
  (s.sources.filter fun x => x.fresh).filterMap fun x => x.reading

/-- The raw speed: the mean of the fresh speeds, truncated (R27). -/
def rawSpeed (rs : List (Nat × Nat)) : Nat := (rs.map fun p => p.1).sum / rs.length

/-- The speed filter's update (R29): the difference is shifted right arithmetically. -/
def speedStep (acc : Int) (raw shift : Nat) : Int := acc + ((raw : Int) * 256 - acc) / 2 ^ shift

/-- The direction filter's update (R30): the difference is taken from D_f the short way round, and the accumulator is wrapped
into 0 to 921,599. -/
def directionStep (acc : Int) (raw shift : Nat) : Int :=
  let a := acc + wrapDir ((raw : Int) - acc / 256) * 256 / 2 ^ shift
  if 921599 < a then a - 921600 else if a < 0 then a + 921600 else a

/-- The direction lies in the sector widened by the hysteresis on both sides, around the circle (R33). -/
def inBand (direction sector hysteresis : Nat) : Bool :=
  decide (((direction : Int) - (150 * (sector : Int) - hysteresis)) % 3600 < 150 + 2 * hysteresis)

/-- A veer event: the unreleased steps of every RUNNING wave are cancelled, finished waves complete, the veers counter advances and
the VEER notice gives the number of steps made CANCELLED (R34, R98). -/
def State.veer (s : State) (old new : Nat) : State :=
  let s1 := s.cancelUnreleased
  ((s1.completeWaves).tally fun c => { c with veers := c.veers + 1 }).notify
    (.veer old new (s1.cancelledSteps - s.cancelledSteps))

/-- Part 5 of the estimate step for a unit that was primed: the sector is judged for change, and in STEER or DRAIN a change is a
veer event (R33, R34). -/
def State.judgeSector (s : State) : State :=
  match s.sector with
  | none => { s with sector := some (s.df / 150) }
  | some sec =>
    if inBand s.df sec s.params.hysteresis then s
    else
      let s1 := { s with sector := some (s.df / 150) }
      if s.mode = .steer ∨ s.mode = .drain then s1.veer sec (s.df / 150) else s1

/-- The latches of a RUNNING wave at an estimate step that found a source fresh; a set latch stays set (R36). -/
def Wave.evaluateLatches (w : Wave) (df uf wThreshold gThreshold : Nat) : Wave :=
  match w.running, w.dRef, w.uRef with
  | true, some d, some u =>
    { w with
      latchW := w.latchW || decide (wThreshold < (wrapDir ((df : Int) - d)).natAbs)
      latchG := w.latchG || decide (gThreshold < ((uf : Int) - u).natAbs) }
  | _, _, _ => w

/-- Part 6 of the estimate step (R36). -/
def State.evaluateLatches (s : State) : State :=
  { s with waves := s.waves.map fun w =>
      w.evaluateLatches s.df s.uf s.params.wThreshold s.params.gThreshold }

/-- The estimate step (R26): with no fresh source only the mark changes; otherwise an unprimed unit primes (R28, R32) and a primed
one filters (R29, R30), the mark becomes FRESH, the sector is judged and the latches are evaluated. -/
def State.estimate (s : State) : State :=
  let s1 := s.judgeSources
  match s1.freshReadings with
  | [] => { s1 with mark := .stale }
  | r :: rs =>
    let raw := rawSpeed (r :: rs)
    match s1.filter with
    | none =>
      State.evaluateLatches
        { s1 with
          filter := some ⟨(raw : Int) * 256, (r.2 : Int) * 256⟩, mark := .fresh, sector := some (r.2 / 150) }
    | some f =>
      State.evaluateLatches (State.judgeSector
        { s1 with
          filter := some ⟨speedStep f.speed raw s1.params.speedShift,
            directionStep f.direction r.2 s1.params.directionShift⟩
          mark := .fresh })

/-- The estimate step that fell due at a count is taken, with the release tests it can bring about (R26, R85); nothing is due
otherwise. -/
def State.takeEstimate (s : State) : State :=
  if s.estimateDue then State.settle (State.estimate { s with estimateDue := false }) else s

end Sys2Proof.Machine
end

