-- ==== Sys2Proof/Machine/Events.lean ====
section
/-! DEFINITION. The meanings of the commands that are events of the unit itself: power, the count and what falls due at it, the lines
and links, the divider, the queues, and the events of waves, slots and modes. An event that does not come about in the state it is
commanded in changes nothing (notes/assumptions/10.md), and none comes about while RSTN is held (notes/assumptions/7.md). -/

namespace Sys2Proof.Machine

/-- An event of a running unit; while RSTN is held low or the supply is absent there is none (R171). -/
def State.whenRunning (s : State) (t : State) : State := if s.relayClosed then s else t

/-! ### Power (R143, R171) -/

/-- The unit at the release of RSTN, with the levels found at the straps, the lines and the ports (R143, R156, R171, R173): every block
takes its power-on values. The station address is the part's own (R169), and the model's queue and draw counter go on. DESIGN CHOICE: a
release is taken from every state, held or not (notes/assumptions/24.md). -/
def State.powered (s : State) (straps : Byte) (storm yhold linkU linkD : Bool) : State :=
  { nodeAddr := straps, station := s.station, stormLine := storm, yholdLine := yhold
    storm := stormFromLevel .rising storm, linkU := linkU, linkD := linkD
    draws := s.draws, pending := s.pending }

/-- POWER_ON (R143). -/
def execPowerOn (straps : Byte) (storm yhold linkU linkD : Bool) (s : State) : Out :=
  .next (s.powered straps storm yhold linkU linkD)

/-- RSTN_HOLD (R171): the bypass relay closes. The spec does not say how MOTION stands meanwhile. -/
def execRstnHold (s : State) : Out :=
  .next (s.whenRunning
    { s with relayClosed := true, motion := Config.motionWhileHeld s.draws, draws := s.draws + 1 })

/-! ### What falls due at a count -/

/-- The expiry of a turbine's move deadline, if it is reached (R113, R135). -/
def State.takeDeadline (s : State) (node : Nat) : State :=
  match s.turbine? node with
  | some t => if t.live.deadlineReached s.timeBase then (s.stall t).settle else s
  | none => s

/-- A step takes the count that brought it to A or P: its release test is made, with its deadline judgement (R85, R86). -/
def State.takeTest (s : State) (k : Nat × Nat) : State :=
  (s.updStep k.1 k.2 fun x => { x with owesTest := false, owesDeadline := false }).settle

/-- The release test of a step, if it has a count still to take. -/
def State.takeOwedTest (s : State) (k : Nat × Nat) : State :=
  if s.owesTest k || s.owesDeadline k then s.takeTest k else s

/-- The quiet timer's expiry, if it is due (R61, R63). -/
def State.takeQuiet (s : State) : State := if s.quietDue then s.quietExpire else s

/-- The lapse timer's expiry, if it is due (R158). -/
def State.takeLapse (s : State) : State := if s.lapseDue then s.lapseExpire else s

/-- What fell due at the last count and was not commanded since is taken before the next count: the deadlines, the release tests, the
quiet and lapse expiries and the estimate step (notes/assumptions/9.md). -/
def State.closeCount (s : State) : State :=
  let s1 := (s.turbines.map fun t => t.node).foldl State.takeDeadline s
  (s1.stepKeys.foldl State.takeOwedTest s1).takeQuiet.takeLapse.takeEstimate

/-! ### The count (R113) -/

/-- A step at a count: its hold counter advances while it is HOLDING, RELEASING or MOVING (R76), and a HOLDING step that this count
brings to A or to P has its test there still to take (R85, R86). -/
def WaveStep.tick (st : WaveStep) : WaveStep :=
  match st.state with
  | .holding =>
    let x := { st with hold := sat16 (st.hold + 1) }
    { x with
      owesTest := x.owesTest || (x.reachedA && !st.reachedA)
      owesDeadline := x.owesDeadline || (x.reachedP && !st.reachedP) }
  | .releasing | .moving => { st with hold := sat16 (st.hold + 1) }
  | .empty | .waiting | .done | .skipped | .cancelled => st

/-- The lapse timer at a count (R158). -/
def Lapse.tick : Lapse → Lapse
  | .running v => .running (sat16 (v + 1))
  | .stopped => .stopped
  | .expired v => .expired v

/-- The lapse timer stands at or past a lapse time above 0 (R158). -/
def Lapse.reached (l : Lapse) (lapseTime : Nat) : Bool :=
  match l with
  | .running v => decide (0 < lapseTime ∧ lapseTime ≤ v)
  | .stopped | .expired _ => false

/-- One count: the time base, the hold counters, the report and source ages and the running timers advance by one (R9, R25, R61, R76,
R113, R158), and the estimate step, the quiet expiry and the lapse expiry that it brings about fall due (R26, R61, R158). -/
def State.tick (s : State) : State :=
  let quiet := s.quiet.map fun v => v + 1
  { s with
    timeBase := s.timeBase + 1
    turbines := s.turbines.map fun t => { t with live := { t.live with age := sat16 (t.live.age + 1) } }
    sources := s.sources.map fun x => { x with age := sat16 (x.age + 1) }
    waves := s.waves.map fun w => { w with steps := w.steps.map WaveStep.tick }
    quiet := quiet
    quietDue := s.quietDue || (quiet.map fun v => decide (s.params.quietTime ≤ v)).getD false
    lapse := s.lapse.tick
    lapseDue := s.lapseDue || s.lapse.tick.reached s.params.lapseTime
    estimateDue := s.estimateDue || (s.timeBase + 1).toNat % 10 == 0 }

/-- COUNT (R113). -/
def execCount (s : State) : Out := .next (s.whenRunning s.closeCount.tick)

/-- ESTIMATE_STEP (R26): the estimate step that fell due at the count is taken. -/
def execEstimateStep (s : State) : Out := .next (s.whenRunning s.takeEstimate)

/-- QUIET_TIMER_EXPIRY (R63). -/
def execQuietTimerExpiry (s : State) : Out := .next (s.whenRunning s.takeQuiet)

/-- LAPSE_EXPIRY (R158). -/
def execLapseExpiry (s : State) : Out := .next (s.whenRunning s.takeLapse)

/-- DEADLINE_EXPIRY (R135). -/
def execDeadlineExpiry (node : Nat) (s : State) : Out := .next (s.whenRunning (s.takeDeadline node))

/-- A HOLDING step that has reached A (R44). -/
def State.atA (s : State) (num r : Nat) : Bool :=
  match s.step? num r with
  | some st => st.state == .holding && st.reachedA
  | none => false

/-- A HOLDING step that has reached P (R44). -/
def State.atP (s : State) (num r : Nat) : Bool :=
  match s.step? num r with
  | some st => st.state == .holding && st.reachedP
  | none => false

/-- A_REACHED (R44, R85): the release test of a HOLDING step that has reached A is made. -/
def execAReached (wave row : Nat) (s : State) : Out :=
  .next (s.whenRunning (if s.atA wave row then s.takeTest (wave, row) else s))

/-- P_REACHED (R86): the release test of a HOLDING step that has reached P is made, and then its deadline action acts. -/
def execPReached (wave row : Nat) (s : State) : Out :=
  .next (s.whenRunning (if s.atP wave row then s.takeTest (wave, row) else s))

/-! ### Lines and links -/

/-- STORM_LINE_CHANGE (R156): the line takes a level other than the one it had. -/
def execStormLineChange (level : Bool) (s : State) : Out :=
  .next (s.whenRunning (if level = s.stormLine then s else s.stormEdge level))

/-- YAW_HOLD_CHANGE (R132): the line takes a level other than the one it had; becoming inactive, the grant condition is judged. -/
def execYawHoldChange (level : Bool) (s : State) : Out :=
  let s1 := { s with yholdLine := level }
  .next (s.whenRunning
    (if level = s.yholdLine then s else if s1.holdActive then s1 else s1.serveArbiter))

/-- LINK_LOSS (R159, R160). -/
def execLinkLoss (p : Port) (s : State) : Out :=
  .next (s.whenRunning
    (match p with
      | .u => if s.linkU then State.notify { s with linkU := false } (.link .u false) else s
      | .d => if s.linkD then s.loseD else s))

/-- LINK_RETURN (R160). -/
def execLinkReturn (p : Port) (s : State) : Out :=
  .next (s.whenRunning
    (match p with
      | .u => if s.linkU then s else State.notify { s with linkU := true } (.link .u true)
      | .d => if s.linkD then s else State.notify { s with linkD := true } (.link .d true)))

/-! ### Divider and queues -/

/-- DIVIDER_ARRIVAL (R109). -/
def execDividerArrival (s : State) : Out := .next (s.whenRunning s.arrival)

/-- DIVIDER_SERVICE_START (R107). -/
def execDividerServiceStart (s : State) : Out := .next (s.whenRunning { s with divider := s.divider.serve })

/-- TRANSMIT_COMPLETION (R168): the head frame leaves the queue of a port whose link is up; the freeing of an own place on D is an event
at the release arbiter (R127, R129). -/
def execTransmitCompletion (p : Port) (s : State) : Out :=
  .next (s.whenRunning
    (match p with
      | .u =>
        match s.linkU, s.queueU with
        | true, _ :: rest => { s with queueU := rest }
        | _, _ => s
      | .d =>
        match s.linkD, s.queueD with
        | true, f :: rest => if f.own then State.serveArbiter { s with queueD := rest } else { s with queueD := rest }
        | _, _ => s))

/-! ### Waves, slots and modes -/

/-- STEP_RELEASE (R88): a HOLDING step whose five release conditions hold releases. -/
def execStepRelease (wave row : Nat) (s : State) : Out :=
  .next (s.whenRunning
    (if s.canRelease wave row then (s.releaseStep wave row).completeWaves.settleAfter [wave] else s))

/-- GRANT (R130): the head of the HIGH or LOW list is granted where the grant condition holds, and the condition is judged again
(R129). -/
def execGrant (s : State) : Out :=
  .next (s.whenRunning
    (match s.retargets, s.grantable with
      | [], some (n, c) => (s.grantNode n c).serveArbiter
      | _, _ => s))

/-- RETARGET_FRAME (R138): the head of the retarget list gets a free own place, and the list is served on. -/
def execRetargetFrame (s : State) : Out :=
  .next (s.whenRunning
    (match s.retargets with
      | n :: _ => if s.freePlaces = 0 then s else (s.retargetNode n).serveArbiter
      | [] => s))

/-- WAVE_COMPLETION (R71): a RUNNING wave whose steps are all terminal completes. -/
def execWaveCompletion (wave : Nat) (s : State) : Out :=
  .next (s.whenRunning
    (match s.wave? wave with
      | some w => if w.finished then (s.completeWave w).settle else s
      | none => s))

/-- DRAIN_END (R148). -/
def execDrainEnd (s : State) : Out := .next (s.whenRunning (if s.drainOver then s.endToPass else s))

/-- RETURN_END (R150). -/
def execReturnEnd (s : State) : Out := .next (s.whenRunning (if s.returnOver then s.endToPass else s))

end Sys2Proof.Machine
end

