-- ==== Sys2Proof/Machine/Management.lean ====
section
/-! DEFINITION. Management (chapter 10): every request with its checks, its effect and its reply, and the delivery of a MANAGE
frame (R170, R175). -/

namespace Sys2Proof.Machine

/-! ### STATUS (R176) -/

/-- The lapse state code and value of a STATUS reply (R176). -/
def Lapse.fields : Lapse → List Byte
  | .stopped => [0] ++ num16 0
  | .running v => [1] ++ num16 v
  | .expired v => [2] ++ num16 v

/-- The freshness bits: bit n is set when source-list entry n was fresh at the last estimate step (R176). -/
def freshnessBits (sources : List Source) : Nat :=
  (sources.zipIdx.map fun p => if p.1.fresh then 2 ^ p.2 else 0).sum

/-- The result fields of a STATUS reply, in the order of R174. -/
def State.statusFields (s : State) : List Byte :=
  [byte s.mode.code, byte s.cause.code, flag s.storm, flag s.stormLine, flag s.holdActive, flag s.motion] ++
    s.lapse.fields ++
    [byte ((if s.linkU then 1 else 0) + (if s.linkD then 2 else 0)), s.nodeAddr] ++
    bytes48 s.station ++ bytes32 s.timeBase ++
    [flag s.filter.isSome, flag (s.mark == .fresh)] ++ num16 s.uf ++ num16 s.df ++
    [optByte s.sector, byte (freshnessBits s.sources), byte s.waves.length, flag s.forming?.isSome,
      flag s.neutral.active, byte s.slots, byte s.lowSlots, byte s.highSlots,
      byte s.high.length, byte s.low.length, byte s.retargets.length,
      byte (ownFrames s.queueD), byte (forwardedFrames s.queueD),
      byte (ownFrames s.queueU), byte (forwardedFrames s.queueU)] ++
    num16 s.divider.list.length ++ [flag s.divider.stage.isSome]

/-- STATUS (R176). DEDUCED: the picture is taken before its own reply is placed (notes/assumptions/14.md). -/
def State.doStatus (s : State) (e : Env) : State := s.reply e 1 .ok s.statusFields

/-! ### Parameters (R177 to R179) -/

/-- The range of a parameter, if the number names one (R177). -/
def paramRange : Nat → Option (Nat × Nat)
  | 1 => some (1536, 65535) | 2 => some (1, 64) | 3 => some (0, 64) | 4 => some (0, 50)
  | 5 => some (1, 255) | 6 => some (0, 65535) | 7 => some (1, 255) | 8 => some (1, 8)
  | 9 => some (1, 8) | 10 => some (0, 75) | 11 => some (0, 900) | 12 => some (0, 200)
  | 13 => some (1, 200) | 14 => some (0, 6000) | 15 => some (0, 2) | 16 => some (0, 1)
  | _ => none

/-- The parameters that are changed in PASS alone (R177). -/
def passOnly (n : Nat) : Bool := n == 2 || n == 3 || n == 15 || n == 16

/-- The storm edge that a value encodes (R177). -/
def StormEdge.ofValue (v : Nat) : StormEdge := if v = 0 then .rising else if v = 1 then .falling else .both

/-- The polarity that a value encodes (R177). -/
def Polarity.ofValue (v : Nat) : Polarity := if v = 0 then .highActive else .lowActive

/-- The value of a parameter by its number (R177, R179). -/
def Params.get (p : Params) : Nat → Nat
  | 1 => p.controlType | 2 => p.budget | 3 => p.headroom | 4 => p.tolerance
  | 5 => p.quietTime | 6 => p.lapseTime | 7 => p.staleness | 8 => p.speedShift
  | 9 => p.directionShift | 10 => p.hysteresis | 11 => p.wThreshold | 12 => p.gThreshold
  | 13 => p.uCalm | 14 => p.margin | 15 => p.stormEdge.code | 16 => p.polarity.code
  | _ => 0

/-- A parameter takes a value (R178). -/
def Params.put (p : Params) (n v : Nat) : Params :=
  match n with
  | 1 => { p with controlType := v } | 2 => { p with budget := v } | 3 => { p with headroom := v }
  | 4 => { p with tolerance := v } | 5 => { p with quietTime := v } | 6 => { p with lapseTime := v }
  | 7 => { p with staleness := v } | 8 => { p with speedShift := v } | 9 => { p with directionShift := v }
  | 10 => { p with hysteresis := v } | 11 => { p with wThreshold := v } | 12 => { p with gThreshold := v }
  | 13 => { p with uCalm := v } | 14 => { p with margin := v }
  | 15 => { p with stormEdge := .ofValue v } | 16 => { p with polarity := .ofValue v }
  | _ => p

/-- A parameter takes a value in the state; for the storm edge the storm condition is taken from the line level again (R156,
R178). -/
def State.putParam (s : State) (n v : Nat) : State :=
  let p := s.params.put n v
  { s with params := p, storm := if n = 15 then stormFromLevel p.stormEdge s.stormLine else s.storm }

/-- The result of a SET PARAM request (R178). -/
def State.checkSetParam (s : State) (n v : Nat) : Result :=
  match paramRange n with
  | none => .range
  | some (lo, hi) =>
    if passOnly n && s.mode != .pass then .mode
    else if lo ≤ v ∧ v ≤ hi then .ok else .range

/-- SET PARAM (R178): the parameter takes the value before the reply is built. -/
def State.doSetParam (s : State) (e : Env) (number : Byte) (value : BitVec 32) : State :=
  let n := number.toNat
  match s.checkSetParam n value.toNat with
  | .ok =>
    let s1 := s.putParam n value.toNat
    s1.reply e 2 .ok ([number] ++ num32 (s1.params.get n))
  | r => s.reply e 2 r []

/-- GET PARAM (R179). -/
def State.doGetParam (s : State) (e : Env) (number : Byte) : State :=
  match paramRange number.toNat with
  | none => s.reply e 3 .range []
  | some _ => s.reply e 3 .ok ([number] ++ num32 (s.params.get number.toNat))

/-! ### Turbines and rows (chapter 1) -/

/-- The column of a node's entry (R1). -/
def State.columnOf (s : State) (node : Nat) : Nat := ((s.turbine? node).map fun t => t.config.column).getD 0

/-- A node at the place its column gives in a member list (R18). -/
def State.insertMember (s : State) (node column : Nat) (members : List Nat) : List Nat :=
  (members.filter fun n => decide (s.columnOf n < column)) ++
    node :: members.filter fun n => !decide (s.columnOf n < column)

/-- An entry in its place by node address, with the load values of R5 in its live record (R2, R3). -/
def State.putEntry (s : State) (node : Nat) (c : TurbineConfig) : State :=
  { s with turbines :=
      (s.turbines.filter fun t => decide (t.node < node)) ++ { node := node, config := c } ::
        s.turbines.filter fun t => decide (node < t.node) }

/-- A node leaves the member list of a row; the other members keep their order (R4, R18). -/
def State.leaveRow (s : State) (r node : Nat) : State :=
  s.updRow r fun x => { x with members := x.members.filter fun n => n != node }

/-- A node leaves the row its entry names, if it has one (R3, R18). -/
def State.leaveOldRow (s : State) (node : Nat) : State :=
  match s.turbine? node with
  | some t => s.leaveRow t.config.row node
  | none => s

/-- A successful load (R2, R3): the node leaves its old row's list and joins the new one at the place its column gives, and its entry
takes the requested fields and the load values. -/
def State.loadEntry (s : State) (node : Nat) (c : TurbineConfig) : State :=
  let s1 := s.leaveOldRow node
  (s1.updRow c.row fun x => { x with members := s1.insertMember node c.column x.members }).putEntry node c

/-- The configuration that a LOAD TURBINE request asks for, if every field is in range (R2, check 2). -/
def turbineConfig? (q : TurbineReq) : Option TurbineConfig :=
  match Format.ofCode q.format with
  | none => none
  | some f =>
    if q.node = 0 ∨ q.node = 255 ∨ 15 < q.row.toNat ∨ 31 < q.column.toNat ∨ 300 < q.limit.toNat ∨
        q.rate.toNat = 0 ∨ 200 < q.rate.toNat then none
    else some ⟨q.row.toNat, q.column.toNat, f, q.limit.toNat, q.rate.toNat⟩

/-- The checks 3 to 5 of a LOAD TURBINE request whose fields are in range (R2). -/
def State.checkLoad (s : State) (node : Byte) (c : TurbineConfig) : Result :=
  if node = s.nodeAddr then .conflict
  else if 32 ≤ ((s.members c.row).filter fun n => n != node.toNat).length then .full
  else if s.turbines.any fun t =>
      t.node != node.toNat && t.config.row == c.row && t.config.column == c.column then .conflict
  else .ok

/-- LOAD TURBINE (R2, R3). -/
def State.doLoadTurbine (s : State) (e : Env) (q : TurbineReq) : State :=
  if s.mode ≠ .pass then s.reply e 4 .mode []
  else
    match turbineConfig? q with
    | none => s.reply e 4 .range []
    | some c =>
      match s.checkLoad q.node c with
      | .ok => (s.loadEntry q.node.toNat c).reply e 4 .ok [q.node]
      | r => s.reply e 4 r []

/-- A successful drop: the entry and its live record are removed, and the node leaves its row's list (R4). -/
def State.dropEntry (s : State) (t : Turbine) : State :=
  let s1 := s.leaveRow t.config.row t.node
  { s1 with turbines := s1.turbines.filter fun x => x.node != t.node }

/-- DROP TURBINE (R4). -/
def State.doDropTurbine (s : State) (e : Env) (node : Byte) : State :=
  if s.mode ≠ .pass then s.reply e 5 .mode []
  else if node = 0 ∨ node = 255 then s.reply e 5 .range []
  else
    match s.turbine? node.toNat with
    | none => s.reply e 5 .absent []
    | some t => (s.dropEntry t).reply e 5 .ok [node]

/-- A turbine record (R174, R180). -/
def Turbine.record (t : Turbine) : List Byte :=
  [byte t.node, byte t.config.row, byte t.config.column, byte t.config.format.code] ++
    num16 t.config.limit ++ num16 t.config.rate ++ offset16 t.live.applied ++
    [flag t.live.moving, byte t.live.state.code,
      byte ((if t.live.stalled then 1 else 0) + (if t.live.fault then 2 else 0))] ++
    num16 t.live.age ++ offset16 t.live.commanded ++ offset16 t.live.target ++
    [byte t.live.move.code,
      (match t.live.slot with | some .low => 0 | some .high => 1 | none => 255)] ++
    ownerBytes t.live.owner ++
    (match t.live.deadline with
      | .absent => [0] ++ bytes32 0
      | .pending => [1] ++ bytes32 0
      | .value v _ => [2] ++ bytes32 v)

/-- READ TURBINE (R180). -/
def State.doReadTurbine (s : State) (e : Env) (first number : Byte) : State :=
  if first = 0 ∨ first = 255 ∨ number = 0 ∨ 16 < number.toNat then s.reply e 9 .range []
  else
    match (s.turbines.filter fun t => decide (first.toNat ≤ t.node)).take number.toNat with
    | [] => s.reply e 9 .absent []
    | ts => s.reply e 9 .ok ([byte ts.length] ++ ts.flatMap Turbine.record)

/-- READ ROW (R181). -/
def State.doReadRow (s : State) (e : Env) (row : Byte) : State :=
  if 15 < row.toNat then s.reply e 10 .range []
  else
    let m := s.members row.toNat
    s.reply e 10 .ok ([row, flag (s.masked row.toNat), byte m.length] ++ m.map byte)

/-- The mask flags of all sixteen rows, bit n for row n (R174). -/
def State.maskBits (s : State) : BitVec 16 :=
  BitVec.ofNat 16 ((List.range 16).map fun r => if s.masked r then 2 ^ r else 0).sum

/-- One row of a MASK request that sets: a flag that is clear is set and the steps there that wait or hold are skipped (R97). -/
def State.maskRow (s : State) (r : Nat) : State :=
  if s.masked r then s else (s.setMask r true).skipAt r .mask

/-- MASK with operation set (R97, R181): the reply carries the masks as they stand after the request, and the notices of the skips
stand behind it. -/
def State.doMaskSet (s : State) (e : Env) (rows : BitVec 16) : State :=
  ((rowsOf rows).foldl State.maskRow (s.reply e 17 .ok (bytes16 (s.maskBits ||| rows)))).settle

/-- MASK with operation clear (R19, R181); clearing does not act on running steps (R97). -/
def State.doMaskClear (s : State) (e : Env) (rows : BitVec 16) : State :=
  let s1 := (rowsOf rows).foldl (fun s r => s.setMask r false) s
  s1.reply e 17 .ok (bytes16 s1.maskBits)

/-! ### Sources and plans (chapters 2 and 3) -/

/-- The source that an entry of a LOAD SOURCES request asks for, if it is in range (R22, check 2). -/
def sourceOf? (q : SourceReq) : Option Source :=
  match SourceKind.ofCode q.kind with
  | some k => if q.node = 0 ∨ q.node = 255 then none else some { kind := k, node := q.node.toNat }
  | none => none

/-- The list that a LOAD SOURCES request asks for, if the request is in range (R22, check 2): at most four entries, each present and
in range. DEDUCED: a frame that ends before the last entry its count names is out of range here (R175; notes/assumptions/12.md). -/
def sourceList? (number : Byte) (entries : List SourceReq) : Option (List Source) :=
  if 4 < number.toNat ∨ entries.length < number.toNat then none
  else (entries.take number.toNat).mapM sourceOf?

/-- LOAD SOURCES (R22): a successful load replaces the list and unprimes the unit (R28). -/
def State.doLoadSources (s : State) (e : Env) (number : Byte) (entries : List SourceReq) : State :=
  if s.mode ≠ .pass then s.reply e 6 .mode []
  else
    match sourceList? number entries with
    | none => s.reply e 6 .range []
    | some l =>
      if ¬ (l.map fun x => x.node).Nodup ∨ (l.any fun x => x.node == s.nodeAddr.toNat) = true then
        s.reply e 6 .conflict []
      else (State.unprime { s with sources := l }).reply e 6 .ok [number]

/-- The entry that a LOAD PLAN request asks for, if it is in range (R50, check 2). -/
def entryOf? (q : EntryReq) : Option PlanEntry :=
  match Gate.ofCode q.gate, Action.ofCode q.action with
  | some g, some a =>
    if 15 < q.row.toNat ∨ 4095 < q.spacing.toNat then none
    else some ⟨q.row.toNat, q.spacing.toNat, g, q.slack.toNat, a⟩
  | _, _ => none

/-- The plan that a LOAD PLAN request asks for, if the request is in range (R50, check 2). -/
def planOfReq? (q : PlanReq) : Option Plan :=
  match HoldStart.ofCode q.holdStart with
  | none => none
  | some h =>
    if 23 < q.sector.toNat ∨ q.k.toNat < 512 ∨ 1024 < q.k.toNat ∨ q.hmax.toNat < q.hmin.toNat ∨
        q.count = 0 ∨ 16 < q.count.toNat ∨ q.entries.length < q.count.toNat then none
    else ((q.entries.take q.count.toNat).mapM entryOf?).map fun es =>
      ⟨q.k.toNat, h, q.hmin.toNat, q.hmax.toNat, es⟩

/-- The fields of a plan fit together (R50, check 3): no row twice, and no gate DEADLINE with slack 0. -/
def Plan.fits (p : Plan) : Bool :=
  decide ((p.entries.map fun x => x.row).Nodup) && p.entries.all fun x => x.gate != .deadline || x.slack != 0

/-- The slot of a sector takes a plan or becomes absent (R51, R52). -/
def State.putPlan (s : State) (sector : Nat) (p : Option Plan) : State :=
  { s with plans := s.plans.setIfInBounds sector p }

/-- LOAD PLAN (R50, R51). -/
def State.doLoadPlan (s : State) (e : Env) (q : PlanReq) : State :=
  if s.mode ≠ .pass then s.reply e 7 .mode []
  else
    match planOfReq? q with
    | none => s.reply e 7 .range []
    | some p =>
      if p.fits then (s.putPlan q.sector.toNat (some p)).reply e 7 .ok [q.sector]
      else s.reply e 7 .conflict []

/-- DROP PLAN (R52). -/
def State.doDropPlan (s : State) (e : Env) (sector : Byte) : State :=
  if s.mode ≠ .pass then s.reply e 8 .mode []
  else if 23 < sector.toNat then s.reply e 8 .range []
  else
    match s.plan? sector.toNat with
    | none => s.reply e 8 .absent []
    | some _ => (s.putPlan sector.toNat none).reply e 8 .ok [sector]

/-- The plan fields of a READ PLAN reply, after the sector (R53, R174). -/
def Plan.fields (p : Plan) : List Byte :=
  num16 p.k ++ [byte p.holdStart.code] ++ num16 p.hmin ++ num16 p.hmax ++ [byte p.entries.length] ++
    p.entries.flatMap fun x =>
      [byte x.row] ++ num16 x.spacing ++ [byte x.gate.code] ++ num16 x.slack ++ [byte x.action.code]

/-- READ PLAN (R53). -/
def State.doReadPlan (s : State) (e : Env) (sector : Byte) : State :=
  if 23 < sector.toNat then s.reply e 13 .range []
  else
    match s.plan? sector.toNat with
    | none => s.reply e 13 .absent []
    | some p => s.reply e 13 .ok ([sector] ++ p.fields)

/-! ### Waves, the neutral context and the counters -/

/-- The presence byte of a step in READ WAVE (R174). DESIGN CHOICE: while compare A is pending, bit 1 is set and bit 0, "A present", is free
(notes/assumptions/4.md). -/
def WaveStep.presence (st : WaveStep) : Nat :=
  (match st.cmpA with
    | .absent => 0
    | .value _ => 1
    | .pending => if Config.presentWhilePending then 3 else 2) +
    (if st.cmpP.isSome then 4 else 0) + (if st.rel.isSome then 8 else 0) + (if st.mov.isSome then 16 else 0) +
    (if st.set.isSome then 32 else 0) + (if st.forced then 64 else 0)

/-- A counter field of a step in READ WAVE: its value, or what the field holds while it has none, which the spec leaves open
(notes/assumptions/4.md). `i` tells the five fields apart. -/
def counterField (i : Nat) : Option Nat → List Byte
  | some n => num16 n
  | none => bytes16 (Config.absentField i)

/-- A step in READ WAVE (R174). DESIGN CHOICE: while compare A is pending, the field A has no value and is free, as while it is absent
(notes/assumptions/4.md). -/
def WaveStep.record (st : WaveStep) : List Byte :=
  [byte st.row, byte st.state.code] ++ num16 st.spacing ++ num16 st.hold ++ [byte st.presence] ++
    counterField 0 (match st.cmpA with | .value a => some a | .absent | .pending => none) ++
    counterField 1 st.cmpP ++
    [byte st.gate.code, byte st.action.code, byte st.needed, byte st.settled, byte st.stalled, byte st.faulted,
      byte st.superseded, byte st.cancelled] ++
    counterField 2 st.rel ++ counterField 3 st.mov ++ counterField 4 st.set

/-- The result fields of a READ WAVE reply from a first target index (R74, R174, R182). DESIGN CHOICE: the step count of a FORMING record,
whose step list is absent, is a free byte (notes/assumptions/4.md). DEDUCED: its latch byte is 0 (notes/assumptions/15.md). -/
def Wave.fields (w : Wave) (first : Nat) : List Byte :=
  let listed := (w.targets.drop first).take 128
  [byte w.num, byte w.set, Config.waveStateCode w.running, optByte w.sector] ++ optRef w.dRef ++ optRef w.uRef ++
    [byte ((if w.latchW then 1 else 0) + (if w.latchG then 2 else 0))] ++ num16 w.folds ++ num16 w.drops ++
    [byte w.outside, byte w.targets.length, byte listed.length] ++
    (listed.flatMap fun p => [byte p.1] ++ offset16 (some p.2)) ++
    [if w.running then byte w.steps.length else Config.absentStepCount] ++ w.steps.flatMap WaveStep.record

/-- READ WAVE (R74, R182). -/
def State.doReadWave (s : State) (e : Env) (position first : Byte) : State :=
  if 3 < position.toNat then s.reply e 11 .range []
  else
    match s.waves[position.toNat]? with
    | none => s.reply e 11 .absent []
    | some w => s.reply e 11 .ok (w.fields first.toNat)

/-- The neutral cause field: 255 when absent (R174). -/
def neutralCauseByte : Option NeutralCause → Byte
  | some c => byte c.code
  | none => 255

/-- The result fields of a READ NEUTRAL reply (R151, R174). -/
def Neutral.fields (n : Neutral) : List Byte :=
  [flag n.active, neutralCauseByte n.cause, byte n.steps.length] ++
    n.steps.flatMap fun x =>
      [byte x.row, byte x.state.code, byte x.needed, byte x.settled, byte x.stalled, byte x.faulted, byte x.cancelled]

/-- READ NEUTRAL (R151). -/
def State.doReadNeutral (s : State) (e : Env) : State := s.reply e 12 .ok s.neutral.fields

/-- The result fields of a READ COUNTS reply (R174, R183). -/
def State.countFields (s : State) : List Byte :=
  let c := s.counters
  ([c.closed, c.done, c.folded, c.dropped, c.veers, c.stalls, c.skips,
    s.countersU.forwarded, s.countersU.dropped, s.countersU.malformed,
    s.countersD.forwarded, s.countersD.dropped, s.countersD.malformed,
    s.discardedManage, s.ownDropped]).flatMap bytes32

/-- READ COUNTS (R183). -/
def State.doReadCounts (s : State) (e : Env) : State := s.reply e 14 .ok s.countFields

/-! ### Modes (chapter 8) -/

/-- The checks of a MODE STEER request taken in PASS (R146). -/
def State.checkSteer (s : State) : Result :=
  if s.linkD = false then .mode
  else if s.turbines = [] ∨ (s.plans.toList.all fun p => p.isNone) = true then .empty
  else if s.storm then .storm
  else .ok

/-- MODE STEER (R144, R146). -/
def State.doModeSteer (s : State) (e : Env) : State :=
  if s.mode ≠ .pass then s.reply e 15 .mode []
  else
    match s.checkSteer with
    | .ok =>
      let s1 := (s.reply e 15 .ok [byte Mode.steer.code]).setMode .steer .request
      State.notifyMode { s1 with lapse := .running 0, lapseDue := false }
    | r => s.reply e 15 r []

/-- STOP KEEP (R144, R147). -/
def State.doStopKeep (s : State) (e : Env) : State :=
  if s.mode = .steer then ((s.reply e 15 .ok [byte Mode.drain.code]).enterDrain).settle
  else s.reply e 15 .mode []

/-- STOP NEUTRAL (R144, R149). -/
def State.doStopNeutral (s : State) (e : Env) : State :=
  if s.mode = .steer ∨ s.mode = .drain then
    ((s.reply e 15 .ok [byte Mode.returning.code]).enterReturn .stop .stop).settle
  else s.reply e 15 .mode []

/-- A MODE request by its code: any other code gives RANGE in every mode (R144). -/
def State.doMode (s : State) (e : Env) (code : Byte) : State :=
  if code = 1 then s.doModeSteer e
  else if code = 2 then s.doStopKeep e
  else if code = 3 then s.doStopNeutral e
  else s.reply e 15 .range []

/-- NEUTRAL (R153): refused outside STEER; a row set that names no row changes nothing. -/
def State.doNeutral (s : State) (e : Env) (rows : BitVec 16) : State :=
  if s.mode ≠ .steer then s.reply e 16 .mode []
  else
    let s1 := s.reply e 16 .ok (bytes16 rows)
    match rowsOf rows with
    | [] => s1
    | rs => (((s1.setNeutralCause .request).neutralRows rs).judgeNeutral).settle

/-- A MASK request by its operation: any other than 0 and 1 gives RANGE (R181). -/
def State.doMask (s : State) (e : Env) (rows : BitVec 16) (operation : Byte) : State :=
  if operation = 1 then s.doMaskSet e rows
  else if operation = 0 then s.doMaskClear e rows
  else s.reply e 17 .range []

/-- RESTART (R161): the reply is built first. -/
def State.doRestart (s : State) (e : Env) : State := (s.reply e 18 .ok []).restartBlocks

/-! ### Delivery (R170, R175) -/

/-- A request that is one of the eighteen and complete is executed (R175, step 3). -/
def State.execute (s : State) (e : Env) : Request → State
  | .status => s.doStatus e
  | .setParam n v => s.doSetParam e n v
  | .getParam n => s.doGetParam e n
  | .loadTurbine q => s.doLoadTurbine e q
  | .dropTurbine n => s.doDropTurbine e n
  | .loadSources n l => s.doLoadSources e n l
  | .loadPlan q => s.doLoadPlan e q
  | .dropPlan sec => s.doDropPlan e sec
  | .readTurbine a n => s.doReadTurbine e a n
  | .readRow r => s.doReadRow e r
  | .readWave p i => s.doReadWave e p i
  | .readNeutral => s.doReadNeutral e
  | .readPlan sec => s.doReadPlan e sec
  | .readCounts => s.doReadCounts e
  | .mode c => s.doMode e c
  | .neutral rows => s.doNeutral e rows
  | .mask rows op => s.doMask e rows op
  | .restart => s.doRestart e

/-- The request that a MANAGE frame delivers is answered (R175): UNKNOWN for an unlisted code, RANGE for a body that ends early. The
frame's Ethernet source becomes the supervisor address (R169). -/
def State.answer (s : State) (e : Env) (code : Byte) (rd : Reading) : State :=
  let s1 := { s with supervisor := e.ethSrc }
  match rd with
  | .unknown => s1.reply e code .unknown []
  | .short => s1.reply e code .range []
  | .request q => s1.execute e q

/-- A frame's destination is the unit's node address, and that address is usable (R170). -/
def State.addressed (s : State) (dest : Byte) : Bool := dest == s.nodeAddr && s.nodeAddr != 0 && s.nodeAddr != 255

/-- The port's link is up and the line path is running, so that a frame can arrive (R168, R171). DEDUCED for port U: notes/assumptions/19.md. -/
def State.carries (s : State) (p : Port) : Bool :=
  !s.relayClosed && match p with | .u => s.linkU | .d => s.linkD

/-- The arrival on U of a MANAGE frame from an envelope's sender, addressed to the unit's node address (R158, R170): answered, or
forwarded to D while the node address is unusable. DESIGN CHOICE: this is what a row of a request stands for
(notes/assumptions/18.md). -/
def State.manage (s : State) (e : Env) (code : Byte) (fields : List Byte) (rd : Reading) : State :=
  if s.carries .u then
    let s1 := if e.src = 0 then s.restartLapse else s
    if s1.addressed s1.nodeAddr then s1.answer e code rd
    else s1.forward .u (s1.manageFrame e code fields)
  else s

/-- The arrival of a MANAGE frame with a complete request (R170, R175). -/
def State.request (s : State) (e : Env) (q : Request) : State := s.manage e q.code q.fields (.request q)

end Sys2Proof.Machine
end

