-- ==== Sys2Proof/Machine/LinePath.lean ====
section
/-! DEFINITION. The line path (chapter 9): the arrival of a frame, its disposal by kind and port, the interception of setpoints and the
tapping of reports and observations; and the meanings of the four commands that are frames. -/

namespace Sys2Proof.Machine

/-! ### Setpoints on U (R58, R165) -/

/-- A SETPOINT frame on U with its items: by the mode, its taken items go to the intake or are discarded, and the frame is forwarded
unchanged, rewritten without them, or withheld (R58, R165). -/
def State.setpointOnU (s : State) (f : EthFrame) (a : Addr) (items : List Item) : State :=
  let taken := items.filter s.takes
  let left := items.filter fun i => !s.takes i
  if s.mode = .pass ∨ taken = [] then s.forward .u f
  else
    let s1 := if s.mode = .steer then s.intake a.set.toNat (a.flags.getLsbD 0) taken else s
    if left = [] then s1 else s1.forward .u (rewriteSetpoint f items.length left)

/-! ### Tapping (R7, R23, R24, R166) -/

/-- The live record as a tapped report leaves it (R8); STALLED is cleared when the report passes the settle test against the record's
target (R11). -/
def Live.report (l : Live) (f : Format) (r : ReportBody) (tolerance : Nat) : Live :=
  let l1 :=
    { l with
      applied := some (f.receive r.offset)
      moving := r.motion != 0
      state := TurbineState.ofReport r.state
      age := 0
      fault := TurbineState.ofReport r.state == TurbineState.fault }
  { l1 with stalled := l1.stalled && !l1.settledAtTarget tolerance }

/-- A report is tapped into the turbine table: the record is updated, the report is classified for the arbiter, and the release tests
and grants that it can bring about are judged (R7, R8, R10). A node without an entry updates nothing. -/
def State.tapRecord (s : State) (node : Nat) (r : ReportBody) : State :=
  match s.turbine? node with
  | none => s
  | some t =>
    let l := t.live.report t.config.format r s.params.tolerance
    ((s.updLive node fun _ => l).arbiterReport { t with live := l }).settle

/-- A REPORT frame is offered to the observation unit, if its raw state field is 0 (R24), and to the turbine table (R7). -/
def State.tapReport (s : State) (a : Addr) (r : ReportBody) : State :=
  let s1 :=
    if r.state = 0 then s.observe .nacelle a.src.toNat r.speed.toNat r.direction.toNat else s
  s1.tapRecord a.src.toNat r

/-- A REPORT frame on D: tapped, and forwarded to U unchanged (R164, R166). The spec gives no order in U's queue between the forwarded
frame and the notices of the tap, so the order is a free choice (notes/assumptions/6.md). -/
def State.reportOnD (s : State) (f : EthFrame) (a : Addr) (r : ReportBody) : State :=
  let s1 := { s with draws := s.draws + 1 }
  if Config.forwardFirst s.draws then (s1.forward .d f).tapReport a r
  else (s1.tapReport a r).forward .d f

/-- A MET frame on D: offered to the observation unit if its quality field is 0, and forwarded to U unchanged (R23, R164, R166). -/
def State.metOnD (s : State) (f : EthFrame) (a : Addr) (m : MetBody) : State :=
  (if m.quality = 0 then s.observe .met a.src.toNat m.speed.toNat m.direction.toNat else s).forward .d f

/-! ### Arrival (R162 to R164) -/

/-- The envelope of a MANAGE frame. -/
def envOf (a : Addr) (tag : Byte) : Env := ⟨a.ethDst, a.ethSrc, a.src, a.set, a.flags, tag⟩

/-- A classified frame is disposed of by its kind and its receiving port (R163, R164, R170). -/
def State.arrive (s : State) (p : Port) (f : EthFrame) (m : Message) : State :=
  match m, p with
  | .foreign, _ | .passing, _ => s.forward p f
  | .malformed, _ => (s.countMalformed p).forward p f
  | .setpoint a items, .u => s.setpointOnU f a items
  | .setpoint _ _, .d => s.forward .d f
  | .report a r, .d => s.reportOnD f a r
  | .report _ _, .u => s.forward .u f
  | .met a b, .d => s.metOnD f a b
  | .met _ _, .u => s.forward .u f
  | .manage a code tag fields, .u =>
    if s.addressed a.dest then s.answer (envOf a tag) code (readRequest code fields) else s.forward .u f
  | .manage a _ _ _, .d =>
    if s.addressed a.dest then { s with discardedManage := s.discardedManage + 1 } else s.forward .d f

/-- A supervisor frame on U restarts the lapse timer outside PASS, whatever becomes of it (R158). -/
def State.heard (s : State) (p : Port) (supervisor : Bool) : State :=
  match p with
  | .u => if supervisor then s.restartLapse else s
  | .d => s

/-- A frame arrives on a port (R162): dropped when its check sequence is wrong, and otherwise classified and disposed of. No frame
arrives on a port whose link is down, nor while the bypass relay is closed (R168, R171). -/
def State.receive (s : State) (p : Port) (f : EthFrame) : State :=
  if s.carries p then
    if frameGood f then
      (s.heard p (fromSupervisor s.params.controlType f)).arrive p f (classify s.params.controlType f)
    else s
  else s

/-! ### Meanings -/

/-- FRAME_RECEIVED (R162). -/
def execFrameReceived (p : Port) (f : EthFrame) (s : State) : Out := .next (s.receive p f)

/-- The arrival of a well-formed frame of a kind from a sender's addressing, with what it carries. DESIGN CHOICE: this is what a row of a
frame kind stands for (notes/assumptions/18.md). -/
def State.receiveAs (s : State) (p : Port) (kind : Nat) (a : Addr) (body : List Byte) (m : Message) : State :=
  if s.carries p then
    (s.heard p (a.src == 0)).arrive p (controlFrame s.params.controlType kind a body) m
  else s

/-- SETPOINT_FRAME: a SETPOINT frame with the given items arrives on U (R58, R165). -/
def execSetpointFrame (a : Addr) (items : List Item) (s : State) : Out :=
  .next (s.receiveAs .u 1 a (itemBytes items) (.setpoint a items))

/-- REPORT_FRAME: a REPORT frame arrives on D (R7, R8, R24, R164). -/
def execReportFrame (a : Addr) (r : ReportBody) (s : State) : Out :=
  .next (s.receiveAs .d 2 a (reportBytes r) (.report a r))

/-- MET_FRAME: a MET frame arrives on D (R23, R164). -/
def execMetFrame (a : Addr) (m : MetBody) (s : State) : Out :=
  .next (s.receiveAs .d 3 a (metBytes m) (.met a m))

end Sys2Proof.Machine
end

