-- ==== Sys2Proof/Machine/Requests.lean ====
section
/-! DEFINITION. The meanings of the commands that are management requests: each is the arrival on U, in a MANAGE frame addressed to the
unit, of its request (R170, R175). -/

namespace Sys2Proof.Machine

/-- STATUS (R176). -/
def execStatus (e : Env) (s : State) : Out := .next (s.request e .status)

/-- SET PARAM (R178). -/
def execSetParam (e : Env) (number : Byte) (value : BitVec 32) (s : State) : Out :=
  .next (s.request e (.setParam number value))

/-- GET PARAM (R179). -/
def execGetParam (e : Env) (number : Byte) (s : State) : Out := .next (s.request e (.getParam number))

/-- LOAD TURBINE (R2, R3). -/
def execLoadTurbine (e : Env) (q : TurbineReq) (s : State) : Out := .next (s.request e (.loadTurbine q))

/-- DROP TURBINE (R4). -/
def execDropTurbine (e : Env) (node : Byte) (s : State) : Out := .next (s.request e (.dropTurbine node))

/-- LOAD SOURCES (R22). -/
def execLoadSources (e : Env) (number : Byte) (entries : List SourceReq) (s : State) : Out :=
  .next (s.request e (.loadSources number entries))

/-- LOAD PLAN (R50, R51). -/
def execLoadPlan (e : Env) (q : PlanReq) (s : State) : Out := .next (s.request e (.loadPlan q))

/-- DROP PLAN (R52). -/
def execDropPlan (e : Env) (sector : Byte) (s : State) : Out := .next (s.request e (.dropPlan sector))

/-- READ TURBINE (R180). -/
def execReadTurbine (e : Env) (first number : Byte) (s : State) : Out :=
  .next (s.request e (.readTurbine first number))

/-- READ ROW (R181). -/
def execReadRow (e : Env) (row : Byte) (s : State) : Out := .next (s.request e (.readRow row))

/-- READ WAVE (R74, R182). -/
def execReadWave (e : Env) (position first : Byte) (s : State) : Out :=
  .next (s.request e (.readWave position first))

/-- READ NEUTRAL (R151). -/
def execReadNeutral (e : Env) (s : State) : Out := .next (s.request e .readNeutral)

/-- READ PLAN (R53). -/
def execReadPlan (e : Env) (sector : Byte) (s : State) : Out := .next (s.request e (.readPlan sector))

/-- READ COUNTS (R183). -/
def execReadCounts (e : Env) (s : State) : Out := .next (s.request e .readCounts)

/-- MODE STEER (R144, R146). -/
def execModeSteer (e : Env) (s : State) : Out := .next (s.request e (.mode 1))

/-- MODE STOP KEEP (R144, R147). -/
def execStopKeep (e : Env) (s : State) : Out := .next (s.request e (.mode 2))

/-- MODE STOP NEUTRAL (R144, R149). -/
def execStopNeutral (e : Env) (s : State) : Out := .next (s.request e (.mode 3))

/-- NEUTRAL (R153). -/
def execNeutral (e : Env) (rows : BitVec 16) (s : State) : Out := .next (s.request e (.neutral rows))

/-- MASK with operation set (R97, R181). -/
def execMaskSet (e : Env) (rows : BitVec 16) (s : State) : Out := .next (s.request e (.mask rows 1))

/-- MASK with operation clear (R19, R181). -/
def execMaskClear (e : Env) (rows : BitVec 16) (s : State) : Out := .next (s.request e (.mask rows 0))

/-- RESTART (R161). -/
def execRestart (e : Env) (s : State) : Out := .next (s.request e .restart)

/-- A request with an unlisted code (R175); the code and field bytes are read as R175 reads them. -/
def execUnknownRequest (e : Env) (code : Byte) (fields : List Byte) (s : State) : Out :=
  .next (s.manage e code fields (readRequest code fields))

end Sys2Proof.Machine
end

