-- ==== Sys2Proof/Machine/Dispatch.lean ====
section
/-! DEFINITION. The dispatch of a command to its meaning, one arm a constructor. -/

namespace Sys2Proof.Machine

def exec (i : Instr) (s : State) : Host.Outcome State Fault Refusal :=
  match i with
  | .powerOn straps storm yhold linkU linkD => Sys2Proof.Machine.execPowerOn straps storm yhold linkU linkD s
  | .rstnHold => Sys2Proof.Machine.execRstnHold s
  | .count => Sys2Proof.Machine.execCount s
  | .estimateStep => Sys2Proof.Machine.execEstimateStep s
  | .quietTimerExpiry => Sys2Proof.Machine.execQuietTimerExpiry s
  | .lapseExpiry => Sys2Proof.Machine.execLapseExpiry s
  | .deadlineExpiry node => Sys2Proof.Machine.execDeadlineExpiry node s
  | .aReached wave row => Sys2Proof.Machine.execAReached wave row s
  | .pReached wave row => Sys2Proof.Machine.execPReached wave row s
  | .frameReceived port frame => Sys2Proof.Machine.execFrameReceived port frame s
  | .setpointFrame addr items => Sys2Proof.Machine.execSetpointFrame addr items s
  | .reportFrame addr body => Sys2Proof.Machine.execReportFrame addr body s
  | .metFrame addr body => Sys2Proof.Machine.execMetFrame addr body s
  | .status env => Sys2Proof.Machine.execStatus env s
  | .setParam env number value => Sys2Proof.Machine.execSetParam env number value s
  | .getParam env number => Sys2Proof.Machine.execGetParam env number s
  | .loadTurbine env req => Sys2Proof.Machine.execLoadTurbine env req s
  | .dropTurbine env node => Sys2Proof.Machine.execDropTurbine env node s
  | .loadSources env number entries => Sys2Proof.Machine.execLoadSources env number entries s
  | .loadPlan env req => Sys2Proof.Machine.execLoadPlan env req s
  | .dropPlan env sector => Sys2Proof.Machine.execDropPlan env sector s
  | .readTurbine env first number => Sys2Proof.Machine.execReadTurbine env first number s
  | .readRow env row => Sys2Proof.Machine.execReadRow env row s
  | .readWave env position first => Sys2Proof.Machine.execReadWave env position first s
  | .readNeutral env => Sys2Proof.Machine.execReadNeutral env s
  | .readPlan env sector => Sys2Proof.Machine.execReadPlan env sector s
  | .readCounts env => Sys2Proof.Machine.execReadCounts env s
  | .modeSteer env => Sys2Proof.Machine.execModeSteer env s
  | .stopKeep env => Sys2Proof.Machine.execStopKeep env s
  | .stopNeutral env => Sys2Proof.Machine.execStopNeutral env s
  | .neutral env rows => Sys2Proof.Machine.execNeutral env rows s
  | .maskSet env rows => Sys2Proof.Machine.execMaskSet env rows s
  | .maskClear env rows => Sys2Proof.Machine.execMaskClear env rows s
  | .restart env => Sys2Proof.Machine.execRestart env s
  | .unknownRequest env code fields => Sys2Proof.Machine.execUnknownRequest env code fields s
  | .stormLineChange level => Sys2Proof.Machine.execStormLineChange level s
  | .yawHoldChange level => Sys2Proof.Machine.execYawHoldChange level s
  | .linkLoss port => Sys2Proof.Machine.execLinkLoss port s
  | .linkReturn port => Sys2Proof.Machine.execLinkReturn port s
  | .dividerArrival => Sys2Proof.Machine.execDividerArrival s
  | .dividerServiceStart => Sys2Proof.Machine.execDividerServiceStart s
  | .transmitCompletion port => Sys2Proof.Machine.execTransmitCompletion port s
  | .stepRelease wave row => Sys2Proof.Machine.execStepRelease wave row s
  | .grant => Sys2Proof.Machine.execGrant s
  | .retargetFrame => Sys2Proof.Machine.execRetargetFrame s
  | .waveCompletion wave => Sys2Proof.Machine.execWaveCompletion wave s
  | .drainEnd => Sys2Proof.Machine.execDrainEnd s
  | .returnEnd => Sys2Proof.Machine.execReturnEnd s

end Sys2Proof.Machine
end

