-- ==== Sys2Proof/Machine/Step.lean ====
section
/-! DEFINITION. The step of the unit: the command at the front of the queue is taken and run; on an empty queue the unit idles. -/

namespace Sys2Proof.Machine

/-- One step: the command at the front of the queue runs with the queue's rest. On an empty queue nothing happens
(notes/assumptions/1.md). -/
def step (s : State) : Host.Outcome State Fault Refusal :=
  match s.pending with
  | [] => .next s
  | c :: rest => exec c { s with pending := rest }

/-- The state with the command that a word spells put at the front of its queue; unchanged where the word spells none. -/
def State.withFetchWord (s : State) (nbits w : Nat) : State :=
  match decodeTableWord nbits w with
  | some c => { s with pending := c :: s.pending }
  | none => s

end Sys2Proof.Machine
end

