-- ==== Sys2Proof/Safety.lean ====
section
/-! DEFINITION. What counts as a safe run, in the terms the statements use: the bounds and orders that the spec says always
hold, what propagation leaves alone, and what the rules say of a delivered request, an offered frame and a forwarded frame,
written out from the spec and not from the operations of the machine. -/

namespace Sys2Proof.Machine

/-! ### Bounds and orders that every step keeps -/

/-- The bounds of the output queues' places (R167). -/
def QueueBounds (s : State) : Prop :=
  s.queueD.countP (fun f => !f.own) ≤ 24 ∧ s.queueD.countP (fun f => f.own) ≤ 8 ∧
    s.queueU.countP (fun f => !f.own) ≤ 28 ∧ s.queueU.countP (fun f => f.own) ≤ 4

/-- The ranges of the fourteen numeric parameters (R177); the storm edge and the hold polarity are named values. -/
def ParamRanges (s : State) : Prop :=
  let p := s.params
  (1536 ≤ p.controlType ∧ p.controlType ≤ 65535) ∧ (1 ≤ p.budget ∧ p.budget ≤ 64) ∧ p.headroom ≤ 64 ∧
    p.tolerance ≤ 50 ∧ (1 ≤ p.quietTime ∧ p.quietTime ≤ 255) ∧ p.lapseTime ≤ 65535 ∧
    (1 ≤ p.staleness ∧ p.staleness ≤ 255) ∧ (1 ≤ p.speedShift ∧ p.speedShift ≤ 8) ∧
    (1 ≤ p.directionShift ∧ p.directionShift ≤ 8) ∧ p.hysteresis ≤ 75 ∧ p.wThreshold ≤ 900 ∧
    p.gThreshold ≤ 200 ∧ (1 ≤ p.uCalm ∧ p.uCalm ≤ 200) ∧ p.margin ≤ 6000

/-- The readings, the accumulators and the sector lie in their ranges (R21, R29, R30, R32), under filter shifts of 1 to 8
(R177). -/
def EstimateRanges (s : State) : Prop :=
  (1 ≤ s.params.speedShift ∧ s.params.speedShift ≤ 8) ∧
    (1 ≤ s.params.directionShift ∧ s.params.directionShift ≤ 8) ∧
    (∀ x ∈ s.sources, ∀ p ∈ x.reading, p.1 ≤ 600 ∧ p.2 ≤ 3599) ∧
    (∀ f ∈ s.filter, 0 ≤ f.speed ∧ f.speed ≤ 153600 ∧ 0 ≤ f.direction ∧ f.direction ≤ 921599) ∧
    ∀ k ∈ s.sector, k ≤ 23

/-- Every stored plan has its fields in range (R40, R41) and names no row twice. -/
def PlansOk (s : State) : Prop :=
  ∀ p, some p ∈ s.plans.toList →
    (512 ≤ p.k ∧ p.k ≤ 1024) ∧ p.hmin ≤ p.hmax ∧ (1 ≤ p.entries.length ∧ p.entries.length ≤ 16) ∧
      (∀ e ∈ p.entries, e.row ≤ 15) ∧ (p.entries.map fun e => e.row).Nodup

/-- The wave queue is well formed: at most four records (R55) with distinct numbers (R59); every record but the youngest is
RUNNING, so that at most one is FORMING and it is the youngest (R55); a FORMING record has no step, and a record has at most
one step a row (R41, R57). The plans that new waves are built from are well formed too. -/
def WavesOk (s : State) : Prop :=
  PlansOk s ∧ s.waveCounter ≤ 255 ∧ s.waves.length ≤ 4 ∧ (s.waves.map fun w => w.num).Nodup ∧
    (∀ w ∈ s.waves, w.num ≤ 255) ∧ (∀ w ∈ s.waves.dropLast, w.running = true) ∧
    ∀ w ∈ s.waves, (w.steps.map fun st => st.row).Nodup ∧ (∀ st ∈ w.steps, st.row ≤ 15) ∧
      (w.running = false → w.steps = [])

/-- A step that has been committed: RELEASING, MOVING or DONE. -/
def StepState.committed (x : StepState) : Prop := x = .releasing ∨ x = .moving ∨ x = .done

/-- A step that has not been released: WAITING or HOLDING. -/
def StepState.unreleased (x : StepState) : Prop := x = .waiting ∨ x = .holding

/-- A step that is moving turbines: RELEASING or MOVING. -/
def StepState.active (x : StepState) : Prop := x = .releasing ∨ x = .moving

/-- In every wave, no step is RELEASING, MOVING or DONE while an earlier one is WAITING or HOLDING (R82). -/
def StepsInOrder (s : State) : Prop :=
  WavesOk s ∧
    ∀ w ∈ s.waves, w.steps.Pairwise fun earlier later => later.state.committed → ¬earlier.state.unreleased

/-- At each row at most one step, counting all waves and the neutral context, is RELEASING or MOVING (R83), in the form that a
step keeps: a step that is RELEASING or MOVING has no older wave's live step at its row and no live neutral step there. -/
def OneActiveStep (s : State) : Prop :=
  WavesOk s ∧ (s.neutral.steps.map fun n => n.row).Nodup ∧
    (s.waves.Pairwise fun older younger => ∀ st ∈ younger.steps, st.state.active →
      ∀ o ∈ older.steps, o.row = st.row → o.state.terminal = true) ∧
    ∀ n ∈ s.neutral.steps, n.state ≠ .done → ∀ w ∈ s.waves, ∀ st ∈ w.steps, st.row = n.row → ¬st.state.active

/-- The MOTION line is asserted exactly while a slot is held (R140), while the relay is open. -/
def MotionFollowsSlots (s : State) : Prop :=
  s.relayClosed = false → s.motion = decide (0 < s.lowSlots + s.highSlots)

/-- The slots are within the budget and its headroom, and the LOW slots within the budget (R120). -/
def WithinBudget (s : State) : Prop :=
  s.lowSlots + s.highSlots ≤ s.params.budget + s.params.headroom ∧ s.lowSlots ≤ s.params.budget

/-- The turbine table is in rising node order within 1 to 254 and without the unit's own node (R1), every configuration field is in
range (R1), and each row's member list is the nodes of the entries that name the row, in rising column order (R18). -/
def RowTableOk (s : State) : Prop :=
  (s.turbines.map fun t => t.node).Pairwise (· < ·) ∧
    (∀ t ∈ s.turbines, (1 ≤ t.node ∧ t.node ≤ 254) ∧ t.node ≠ s.nodeAddr.toNat ∧ t.config.row ≤ 15 ∧
      t.config.column ≤ 31 ∧ t.config.limit ≤ 300 ∧ 1 ≤ t.config.rate ∧ t.config.rate ≤ 200) ∧
    ∀ r, r ≤ 15 →
      (∀ n, n ∈ s.members r ↔ ∃ t ∈ s.turbines, t.node = n ∧ t.config.row = r) ∧
        (s.members r).Pairwise fun a b => ∀ ta ∈ s.turbines, ∀ tb ∈ s.turbines,
          ta.node = a → tb.node = b → ta.config.column < tb.config.column

/-- What the live record of a turbine holds in each move state (R122, R123): an IDLE turbine has no slot and no owner; a QUEUED one has an
owner and no slot; a MOVING one holds a LOW slot for a LOW owner or a HIGH slot for the neutral context; a turbine in RETARGET holds a
HIGH slot for the neutral context. A neutral owner's target is 0 (R125, R137, R154). -/
def Turbine.handled (x : Turbine) : Prop :=
  match x.live.move, x.live.slot, x.live.owner with
  | .idle, none, none => True
  | .queued, none, some (.low _ _) | .moving, some .low, some (.low _ _) => x.live.target.isSome = true
  | .queued, none, some (.neutral _) | .moving, some .high, some (.neutral _) | .retarget, some .high, some (.neutral _) =>
    x.live.target = some 0
  | _, _, _ => False

/-- The turbine is QUEUED for a LOW step (R124). -/
def Turbine.waitsLow (x : Turbine) : Bool :=
  match x.live.move, x.live.owner with
  | .queued, some (.low _ _) => true
  | _, _ => false

/-- The turbine is QUEUED for a neutral step (R124). -/
def Turbine.waitsHigh (x : Turbine) : Bool :=
  match x.live.move, x.live.owner with
  | .queued, some (.neutral _) => true
  | _, _ => false

/-- A list names each turbine with a property once, and nothing else (R124, R138). -/
def Names (s : State) (list : List Nat) (waits : Turbine → Bool) : Prop :=
  list.Nodup ∧ (∀ n ∈ list, ∃ x ∈ s.turbines, x.node = n ∧ waits x = true) ∧
    ∀ x ∈ s.turbines, waits x = true → x.node ∈ list

/-- The number of turbines that an owner has (R123). -/
def owned (s : State) (o : Owner) : Nat := s.turbines.countP fun x => x.live.owner == some o

/-- An owner is the live step at the turbine's own row: one in RELEASING or MOVING, and in RELEASING while the turbine is QUEUED (R92, R123,
R151, R155). -/
def OwnerLive (s : State) (x : Turbine) : Prop :=
  match x.live.owner with
  | none => True
  | some (.low num r) =>
    x.config.row = r ∧ ∃ w ∈ s.waves, w.num = num ∧ ∃ st ∈ w.steps, st.row = r ∧
      (st.state = .releasing ∨ (st.state = .moving ∧ x.live.move ≠ .queued))
  | some (.neutral r) =>
    x.config.row = r ∧ ∃ k ∈ s.neutral.steps, k.row = r ∧
      (k.state = .releasing ∨ (k.state = .moving ∧ x.live.move ≠ .queued))

/-- The neutral context holds at most one step a row, in ascending row order, is active while one of them is not DONE, and is cleared when it
is inactive (R151). -/
def NeutralOk (s : State) : Prop :=
  (s.neutral.steps.map fun k => k.row).Pairwise (· < ·) ∧ (∀ k ∈ s.neutral.steps, k.row ≤ 15) ∧
    (s.neutral.active = true → ∃ k ∈ s.neutral.steps, k.state ≠ .done) ∧
    (s.neutral.active = false → s.neutral = ⟨false, none, []⟩)

/-- A step that is not terminal has counted every member it took on, but for the turbines that it still owns (R90, R94, R100, R154). -/
def CountsOk (s : State) : Prop :=
  (∀ w ∈ s.waves, ∀ st ∈ w.steps, st.state.terminal = false →
    st.needed = st.settled + st.stalled + st.faulted + st.superseded + st.cancelled + owned s (.low w.num st.row)) ∧
    ∀ k ∈ s.neutral.steps, k.state ≠ .done →
      k.needed = k.settled + k.stalled + k.faulted + k.cancelled + owned s (.neutral k.row)

/-- The bookkeeping of the release arbiter. The slots lie within the budget (R120) and are those of the turbines that are MOVING or in RETARGET,
class by class (R120, R122, R123); each QUEUED turbine stands once in the list of its class, and in no other, and each turbine in RETARGET
once in the retarget list (R124, R138); every owner is a live step at the turbine's row, and the counts of the live steps account for the
turbines they own (R90, R123, R154); in PASS there is no wave, no live neutral step, no request and no slot (R143); and in RETURN there is
no wave (R150). -/
def ArbiterOk (s : State) : Prop :=
  WithinBudget s ∧ RowTableOk s ∧ OneActiveStep s ∧ NeutralOk s ∧ CountsOk s ∧
    (∀ x ∈ s.turbines, x.handled ∧ OwnerLive s x) ∧
    s.lowSlots = s.turbines.countP (fun x => x.live.slot == some .low) ∧
    s.highSlots = s.turbines.countP (fun x => x.live.slot == some .high) ∧
    Names s s.low Turbine.waitsLow ∧ Names s s.high Turbine.waitsHigh ∧
    Names s s.retargets (fun x => x.live.move == .retarget) ∧
    (s.mode = .pass → s.waves = [] ∧ s.neutral.active = false ∧ s.low = [] ∧ s.high = [] ∧ s.retargets = [] ∧
      s.lowSlots = 0 ∧ s.highSlots = 0) ∧
    (s.mode = .returning → s.waves = [])

/-- Every step that answers a next state keeps a property of states. -/
def KeptByStep (P : State → Prop) : Prop := ∀ s t : State, P s → step s = .next t → P t

/-! ### Frames -/

/-- What a count, a report or a load alone changes in a turbine entry. -/
def Turbine.reported (t : Turbine) :
    Nat × TurbineConfig × Option Int × Bool × TurbineState × Nat × Bool :=
  (t.node, t.config, t.live.applied, t.live.moving, t.live.state, t.live.age, t.live.fault)

/-- What the propagation of an event leaves alone. It may change the wave queue, the neutral context, the move side of the live
records, the lists, the slots, MOTION, the divider, the output queues with the own-frames-dropped counter, the mode with its cause and
the lapse timer, the counters of waves done, stalls and skips, and the draw counter; everything else stays as it is. -/
structure Steady (s t : State) : Prop where
  relayClosed : t.relayClosed = s.relayClosed
  stormLine : t.stormLine = s.stormLine
  yholdLine : t.yholdLine = s.yholdLine
  nodeAddr : t.nodeAddr = s.nodeAddr
  station : t.station = s.station
  supervisor : t.supervisor = s.supervisor
  params : t.params = s.params
  turbines : t.turbines.map Turbine.reported = s.turbines.map Turbine.reported
  rows : t.rows = s.rows
  sources : t.sources = s.sources
  filter : t.filter = s.filter
  mark : t.mark = s.mark
  sector : t.sector = s.sector
  plans : t.plans = s.plans
  waveCounter : t.waveCounter = s.waveCounter
  timeBase : t.timeBase = s.timeBase
  storm : t.storm = s.storm
  linkU : t.linkU = s.linkU
  linkD : t.linkD = s.linkD
  countersU : t.countersU = s.countersU
  countersD : t.countersD = s.countersD
  discardedManage : t.discardedManage = s.discardedManage
  closed : t.counters.closed = s.counters.closed
  folded : t.counters.folded = s.counters.folded
  dropped : t.counters.dropped = s.counters.dropped
  veers : t.counters.veers = s.counters.veers
  estimateDue : t.estimateDue = s.estimateDue
  pending : t.pending = s.pending

/-- No step of any wave is HOLDING, so that no release test can release one. -/
def NoHolding (s : State) : Prop := ∀ w ∈ s.waves, ∀ st ∈ w.steps, st.state ≠ .holding

/-- No step of any wave is WAITING or HOLDING, so that no trigger and no release can follow. -/
def NoneUnreleased (s : State) : Prop := ∀ w ∈ s.waves, ∀ st ∈ w.steps, ¬st.state.unreleased

/-- No RUNNING wave has all its steps terminal: a finished wave has left the queue (R71). -/
def NoneFinished (s : State) : Prop :=
  ∀ w ∈ s.waves, w.running = true → ∃ st ∈ w.steps, st.state.terminal = false

/-- No request is queued and no turbine waits for a retarget frame, so that the arbiter has nothing to serve. -/
def NothingQueued (s : State) : Prop := s.high = [] ∧ s.low = [] ∧ s.retargets = []

/-- The mode is not about to end: DRAIN has a wave or an active neutral context (R148), RETURN an active neutral context (R150). -/
def ModeStands (s : State) : Prop :=
  ¬(s.mode = .drain ∧ s.waves = [] ∧ s.neutral.active = false) ∧
    ¬(s.mode = .returning ∧ s.neutral.active = false)

/-- Nothing follows at the end of an event. -/
def Calm (s : State) : Prop := NoHolding s ∧ NothingQueued s ∧ ModeStands s

/-! ### Frames placed and requests delivered -/

/-- An own frame offered to U's queue: placed at the tail while fewer than four own frames stand there, and otherwise dropped and
counted (R167). -/
def offered (f : EthFrame) (t : State) : State :=
  if t.queueU.countP (fun x => x.own) < 4 then { t with queueU := t.queueU ++ [⟨true, f⟩] }
  else { t with ownDropped := t.ownDropped + 1 }

/-- A notice raised: built with the fields of R169 and offered to U's queue (R184). -/
def noticed (n : Notice) (t : State) : State :=
  offered (controlFrame t.params.controlType 6 ⟨t.supervisor, t.station, 0, t.nodeAddr, 0, 0⟩ n.body) t

/-- Notices raised in one event, in their order (R184). -/
def noticedAll (ns : List Notice) (t : State) : State := ns.foldl (fun u n => noticed n u) t

/-- A request answered: its reply, with the fields of R169 and the code, the tag, the result code and the result fields of R175, is offered
to U's queue. -/
def answered (e : Env) (code : Byte) (r : Result) (fields : List Byte) (t : State) : State :=
  offered (controlFrame t.params.controlType 5 ⟨e.ethSrc, t.station, e.src, t.nodeAddr, e.set, 0⟩
    ([code, e.tag, byte r.code] ++ fields)) t

/-- A frame received on a port and forwarded to the other port's queue: placed and counted, or dropped and counted (R167, R172). -/
def forwarded (p : Port) (f : EthFrame) (t : State) : State :=
  match p with
  | .u =>
    if t.queueD.countP (fun x => !x.own) < 24 then
      { t with
        queueD := t.queueD ++ [⟨false, f⟩]
        countersU := { t.countersU with forwarded := t.countersU.forwarded + 1 } }
    else { t with countersU := { t.countersU with dropped := t.countersU.dropped + 1 } }
  | .d =>
    if t.queueU.countP (fun x => !x.own) < 28 then
      { t with
        queueU := t.queueU ++ [⟨false, f⟩]
        countersD := { t.countersD with forwarded := t.countersD.forwarded + 1 } }
    else { t with countersD := { t.countersD with dropped := t.countersD.dropped + 1 } }

/-- A malformed frame counted at its receiving port (R163, R172). -/
def malformedOn (p : Port) (t : State) : State :=
  match p with
  | .u => { t with countersU := { t.countersU with malformed := t.countersU.malformed + 1 } }
  | .d => { t with countersD := { t.countersD with malformed := t.countersD.malformed + 1 } }

/-- A frame from a source node heard on U: a supervisor frame restarts the lapse timer outside PASS (R158). -/
def heardFrom (src : Byte) (t : State) : State :=
  if src = 0 ∧ t.mode ≠ .pass then { t with lapse := .running 0, lapseDue := false } else t

/-- A frame from a source node heard on a port: only U's frames reach the lapse timer (R158). -/
def heardOn (p : Port) (src : Byte) (t : State) : State :=
  match p with
  | .u => heardFrom src t
  | .d => t

/-- A port takes frames: the relay is open and the port's link is up (R168, R171). -/
def Takes (p : Port) (s : State) : Prop :=
  s.relayClosed = false ∧ (match p with | .u => s.linkU | .d => s.linkD) = true

/-- The unit takes the MANAGE frames addressed to it: they arrive, and the node address is usable (R170, R171). -/
def Served (s : State) : Prop := Takes .u s ∧ s.nodeAddr ≠ 0 ∧ s.nodeAddr ≠ 255

/-- What the delivery of a MANAGE frame does before its request is judged: the lapse timer hears it (R158), and its Ethernet source
becomes the supervisor address (R169). -/
def delivered (e : Env) (s : State) : State := { heardFrom e.src s with supervisor := e.ethSrc }

/-! ### Observation and propagation, written out from their rules -/

/-- A source is fresh at an estimate step (R25). -/
def freshAt (s : State) (x : Source) : Bool := x.reading.isSome && decide (x.age < s.params.staleness)

/-- The readings of the fresh sources, in list order (R27). -/
def freshReadingsAt (s : State) : List (Nat × Nat) := (s.sources.filter (freshAt s)).filterMap fun x => x.reading

/-- The source list with the freshness that an estimate step judges (R26). -/
def judgedSources (s : State) : List Source := s.sources.map fun x => { x with fresh := freshAt s x }

/-- The direction lies in the widened band of a sector, taken around the circle (R33). -/
def InWidenedBand (direction sector hysteresis : Nat) : Prop :=
  ∃ turn : Int, (turn = -3600 ∨ turn = 0 ∨ turn = 3600) ∧
    150 * (sector : Int) - hysteresis ≤ direction + turn ∧
    (direction : Int) + turn ≤ 150 * (sector + 1) - 1 + hysteresis

/-- The target of a node in a target map. -/
def targetIn (targets : List (Nat × Int)) (node : Nat) : Option Int :=
  (targets.find? fun p => p.1 == node).map fun p => p.2

/-- The members of a row that the release of its step queues, in column order: those with a target in the map, a clear FAULT flag, and an
applied offset that is absent or more than the tolerance away from the target (R17, R89). -/
def queuedAtRelease (s : State) (targets : List (Nat × Int)) (r : Nat) : List Nat :=
  (s.members r).filter fun n =>
    match targetIn targets n, s.turbines.find? fun x => x.node == n with
    | some g, some x =>
      !x.live.fault &&
        match x.live.applied with
        | some a => decide (s.params.tolerance < (a - g).natAbs)
        | none => true
    | _, _ => false

/-- The members of a row that the release of its step takes on and counts faulted at once: those with a target in the map and FAULT set
(R89). -/
def faultedAtRelease (s : State) (targets : List (Nat × Int)) (r : Nat) : List Nat :=
  (s.members r).filter fun n =>
    match targetIn targets n, s.turbines.find? fun x => x.node == n with
    | some _, some x => x.live.fault
    | _, _ => false

/-- The members of a row that the release of its step takes on and counts settled at once: those with a target in the map, a clear FAULT
flag, and an applied offset within the tolerance of the target (R17, R89). -/
def settledAtRelease (s : State) (targets : List (Nat × Int)) (r : Nat) : List Nat :=
  (s.members r).filter fun n =>
    match targetIn targets n, s.turbines.find? fun x => x.node == n with
    | some g, some x =>
      !x.live.fault &&
        match x.live.applied with
        | some a => decide ((a - g).natAbs ≤ s.params.tolerance)
        | none => false
    | _, _ => false

/-- The plan's row at an entry has work for a wave with a target map: it is not masked, and a node in the map is a member of it (R66). -/
def HasWork (s : State) (targets : List (Nat × Int)) (e : PlanEntry) : Prop :=
  s.masked e.row = false ∧ ∃ n ∈ s.members e.row, ∃ q ∈ targets, q.1 = n

/-! ### Replies that read, written out from R174 and R176 -/

/-- One byte for a condition: 1 when it holds and 0 otherwise (R176). -/
def bit (b : Bool) : Byte := if b then 1 else 0

/-- The fields of a STATUS reply (R174, R176). -/
def statusLayout (s : State) : List Byte :=
  [(match s.mode with | .pass => 0 | .steer => 1 | .drain => 2 | .returning => 3 : Byte),
    (match s.cause with
      | .powerOn => 0 | .restart => 1 | .request => 2 | .stop => 3 | .storm => 4 | .lapse => 5 | .link => 6 | .complete => 7 : Byte),
    bit s.storm, bit s.stormLine,
    bit (match s.params.polarity with | .highActive => s.yholdLine | .lowActive => !s.yholdLine), bit s.motion] ++
  (match s.lapse with
    | .stopped => 0 :: num16 0
    | .running v => 1 :: num16 v
    | .expired v => 2 :: num16 v) ++
  [byte ((if s.linkU then 1 else 0) + (if s.linkD then 2 else 0)), s.nodeAddr] ++ bytes48 s.station ++ bytes32 s.timeBase ++
  [bit s.filter.isSome, bit (s.mark == .fresh)] ++
  (match s.filter with
    | some f => num16 (f.speed / 256).toNat ++ num16 (f.direction / 256).toNat
    | none => [0, 0, 0, 0]) ++
  [(match s.sector with | some k => byte k | none => 255),
    byte (s.sources.zipIdx.map fun x => if x.1.fresh then 2 ^ x.2 else 0).sum,
    byte s.waves.length, bit (s.waves.any fun w => !w.running), bit s.neutral.active,
    byte (s.lowSlots + s.highSlots), byte s.lowSlots, byte s.highSlots,
    byte s.high.length, byte s.low.length, byte s.retargets.length,
    byte (s.queueD.countP fun f => f.own), byte (s.queueD.countP fun f => !f.own),
    byte (s.queueU.countP fun f => f.own), byte (s.queueU.countP fun f => !f.own)] ++
  num16 s.divider.list.length ++ [bit s.divider.stage.isSome]

/-- An offset that may be absent (R174). -/
def offsetLayout (x : Option Int) : List Byte :=
  match x with
  | some v => bytes16 (BitVec.ofInt 16 v)
  | none => bytes16 (BitVec.ofInt 16 (-32768))

/-- A turbine record of a READ TURBINE reply (R174, R180). -/
def turbineLayout (x : Turbine) : List Byte :=
  [byte x.node, byte x.config.row, byte x.config.column,
    (match x.config.format with | .d1 => 1 | .d2 => 2 | .b1 => 3 : Byte)] ++
  num16 x.config.limit ++ num16 x.config.rate ++ offsetLayout x.live.applied ++
  [bit x.live.moving, (match x.live.state with | .producing => 0 | .standby => 1 | .fault => 2 : Byte),
    byte ((if x.live.stalled then 1 else 0) + (if x.live.fault then 2 else 0))] ++
  num16 x.live.age ++ offsetLayout x.live.commanded ++ offsetLayout x.live.target ++
  [(match x.live.move with | .idle => 0 | .queued => 1 | .moving => 2 | .retarget => 3 : Byte),
    (match x.live.slot with | some .low => 0 | some .high => 1 | none => 255 : Byte)] ++
  (match x.live.owner with
    | some (.low num _) => [0, byte num]
    | some (.neutral _) => [1, 0]
    | none => [255, 0]) ++
  (match x.live.deadline with
    | .absent => [0, 0, 0, 0, 0]
    | .pending => [1, 0, 0, 0, 0]
    | .value v _ => 2 :: bytes32 v)

/-- A step of a READ WAVE reply (R174). What a field holds while it has no value, and bit 0 of the presence byte while compare A is pending,
are free (notes/assumptions/4.md). -/
def stepLayout (st : WaveStep) : List Byte :=
  let field := fun (i : Nat) (x : Option Nat) => match x with
    | some v => num16 v
    | none => bytes16 (Config.absentField i)
  [byte st.row,
    (match st.state with
      | .empty => 0 | .waiting => 1 | .holding => 2 | .releasing => 3 | .moving => 4 | .done => 5 | .skipped => 6
      | .cancelled => 7 : Byte)] ++
  num16 st.spacing ++ num16 st.hold ++
  [byte ((match st.cmpA with
      | .absent => 0
      | .value _ => 1
      | .pending => 2 + (if Config.presentWhilePending then 1 else 0)) + (if st.cmpP.isSome then 4 else 0) +
    (if st.rel.isSome then 8 else 0) + (if st.mov.isSome then 16 else 0) + (if st.set.isSome then 32 else 0) +
    (if st.forced then 64 else 0))] ++
  field 0 (match st.cmpA with | .value v => some v | .absent | .pending => none) ++ field 1 st.cmpP ++
  [(match st.gate with
      | .time => 0 | .settled => 1 | .still => 2 | .direction => 3 | .steady => 4 | .settledSteady => 5 | .stillSteady => 6
      | .deadline => 7 : Byte),
    (match st.action with | .release => 0 | .skip => 1 : Byte), byte st.needed, byte st.settled, byte st.stalled,
    byte st.faulted, byte st.superseded, byte st.cancelled] ++
  field 2 st.rel ++ field 3 st.mov ++ field 4 st.set

/-- The fields of a READ WAVE reply from a first target index (R74, R174, R182). The code of the wave's state, and the step count of a FORMING
record, are free (notes/assumptions/4.md). -/
def waveLayout (w : Wave) (first : Nat) : List Byte :=
  let listed := (w.targets.drop first).take 128
  let reference := fun x : Option Nat => match x with | some v => num16 v | none => [255, 255]
  [byte w.num, byte w.set, Config.waveStateCode w.running, (match w.sector with | some k => byte k | none => 255)] ++
  reference w.dRef ++ reference w.uRef ++ [byte ((if w.latchW then 1 else 0) + (if w.latchG then 2 else 0))] ++
  num16 w.folds ++ num16 w.drops ++ [byte w.outside, byte w.targets.length, byte listed.length] ++
  (listed.flatMap fun q => byte q.1 :: bytes16 (BitVec.ofInt 16 q.2)) ++
  (if w.running then byte w.steps.length else Config.absentStepCount) :: w.steps.flatMap stepLayout

/-- The fields of a READ NEUTRAL reply (R151, R174). -/
def neutralLayout (n : Neutral) : List Byte :=
  [bit n.active,
    (match n.cause with
      | some .request => 2 | some .stop => 3 | some .storm => 4 | some .lapse => 5 | none => 255 : Byte),
    byte n.steps.length] ++
  n.steps.flatMap fun k =>
    [byte k.row, (match k.state with | .releasing => 3 | .moving => 4 | .done => 5 : Byte), byte k.needed, byte k.settled,
      byte k.stalled, byte k.faulted, byte k.cancelled]

/-! ### What an event does to waves, turbines and the neutral context, written out from the rules -/

/-- The WAVE_DONE notice of a wave: its steps by their state, and the sums of its steps' counts (R71). -/
def waveDoneOf (w : Wave) : Notice :=
  .waveDone w.num w.set
    ([StepState.done, .skipped, .cancelled, .empty].map fun x => w.steps.countP fun st => st.state == x)
    ([fun st : WaveStep => st.needed, fun st => st.settled, fun st => st.stalled, fun st => st.faulted,
      fun st => st.superseded, fun st => st.cancelled].map fun f => (w.steps.map f).sum)

/-- No HOLDING step has reached P with its deadline action still to act, but for those with a count still to take (R86). -/
def NoneAtP (s : State) : Prop :=
  ∀ w ∈ s.waves, ∀ st ∈ w.steps, st.state = .holding → st.forced = false → st.owesTest = false → st.owesDeadline = false →
    ∀ p, st.cmpP = some p → st.hold < p

/-- The divider once the requests of some requesters are withdrawn: those that wait leave the list, the entries behind them closing up, and
one in service is marked for discard (R79, R115, R116). -/
def withdrawn (gone : Requester → Bool) (d : Divider) : Divider :=
  { list := d.list.filter fun e => !gone e.requester
    stage := d.stage.map fun v => if gone v.entry.requester then { v with discard := true } else v }

/-- The hold-time request of a step of a wave that enters HOLDING under a plan (R77, R110). -/
def holdRequest (s : State) (w : Wave) (p : Plan) (st : WaveStep) : DivEntry :=
  ⟨.hold w.num st.row, 102400 * st.spacing, p.k * max s.uf s.params.uCalm⟩

/-- The divider once a step has triggered its successor: a WAITING successor places its hold-time request, and otherwise nothing happens
(R77, R81). -/
def afterTrigger (s : State) (w : Wave) (p : Plan) (r : Nat) (d : Divider) : Divider :=
  match w.successor r with
  | some next => if next.state = .waiting then d.place (holdRequest s w p next) else d
  | none => d

/-- The requester of a HOLDING step whose compare A is pending: what a veer event and the entries to DRAIN and RETURN withdraw (R98, R101,
R102). -/
def pendingHold (s : State) (q : Requester) : Bool :=
  match q with
  | .hold num r =>
    s.waves.any fun w => w.running && w.num == num && w.steps.any fun st =>
      st.row == r && (st.state == .waiting || st.state == .holding) && st.cmpA == .pending
  | .deadline _ => false

/-- The divider of a state has the requests of some requesters withdrawn, and behind the others stand only the DEADLINE requests of the
frames that the arbiter placed at the event's end (R111). -/
def DividerLeaves (s t : State) (gone : Requester → Bool) : Prop :=
  ∃ placed : List DivEntry, t.divider = placed.foldl Divider.place (withdrawn gone s.divider) ∧
    (∀ e ∈ placed, ∃ n, e.requester = .deadline n)

/-- The step named by a wave number and a row is HOLDING with its hold time pending (R77). -/
def awaitsHold (s : State) (num r : Nat) : Bool :=
  s.waves.any fun w => w.num == num && w.steps.any fun st => st.row == r && st.state == .holding && st.cmpA == .pending

/-- The divider of a state has the requests of some requesters withdrawn, and behind the others stand only hold times that are awaited (R77)
and DEADLINE requests (R111). -/
def DividerAdds (s t : State) (gone : Requester → Bool) : Prop :=
  ∃ placed : List DivEntry, t.divider = placed.foldl Divider.place (withdrawn gone s.divider) ∧
    ∀ e ∈ placed, match e.requester with
      | .hold num r => awaitsHold t num r = true
      | .deadline _ => True

/-- A RELEASING step still has a turbine that holds a slot (R98). -/
def holdsSlot (s : State) (num r : Nat) : Bool :=
  s.turbines.any fun x => x.live.owner == some (.low num r) && (x.live.move == .moving || x.live.move == .retarget)

/-- The turbines QUEUED for a LOW step. -/
def queuedOf (s : State) (num r : Nat) : Nat :=
  s.turbines.countP fun x => x.live.owner == some (.low num r) && x.live.move == .queued

/-- A step of a RUNNING wave after a veer event or an entry to DRAIN (R98, R101): WAITING and HOLDING become CANCELLED and lose a pending
hold-time request (R79); RELEASING loses its queued requests, which it counts cancelled, and becomes MOVING while a turbine of it holds a
slot and CANCELLED otherwise; every other step stands. -/
def drainedStep (s : State) (num : Nat) (st : WaveStep) : WaveStep :=
  match st.state with
  | .waiting | .holding =>
    { st with state := .cancelled, cmpA := if st.cmpA = .pending then .absent else st.cmpA, owesTest := false, owesDeadline := false }
  | .releasing =>
    { st with
      state := if holdsSlot s num st.row then .moving else .cancelled
      cancelled := st.cancelled + queuedOf s num st.row }
  | .empty | .moving | .done | .skipped | .cancelled => st

/-- A record after a veer event or an entry to DRAIN, before completions: a FORMING record is not reached (R98). -/
def drainedWave (s : State) (w : Wave) : Wave :=
  if w.running then { w with steps := w.steps.map (drainedStep s w.num) } else w

/-- A RUNNING record whose steps are all terminal (R71). -/
def ended (w : Wave) : Bool := w.running && w.steps.all fun st => st.state.terminal

/-- The records that stand after a veer event or an entry to DRAIN, and those that complete at it, oldest first. -/
def drainedWaves (s : State) : List Wave := (s.waves.map (drainedWave s)).filter fun w => !ended w
def drainedOut (s : State) : List Wave := (s.waves.map (drainedWave s)).filter ended

/-- The number of steps that a veer event makes CANCELLED (R98). -/
def drainedCount (s : State) : Nat :=
  (s.waves.map fun w => (drainedWave s w).steps.countP fun st => st.state == .cancelled).sum -
    (s.waves.map fun w => w.steps.countP fun st => st.state == .cancelled).sum

/-- A turbine after a veer event or an entry to DRAIN: QUEUED for a LOW step, it becomes IDLE without owner, its target and commanded offset
kept (R126); holding a slot, it carries on; IDLE, it stands. -/
def Drained (x y : Turbine) : Prop :=
  y.node = x.node ∧
    (x.waitsLow = true → y = { x with live := { x.live with move := .idle, slot := none, owner := none, deadline := .absent } }) ∧
    (x.live.move = .moving ∨ x.live.move = .idle → y = x)

/-- The release arbiter has nothing left to do at the end of an event: no retarget frame can be placed, and with none waiting the grant
condition fails (R128, R129, R138). -/
def ArbiterServed (s : State) : Prop :=
  (s.retargets = [] ∨ 8 ≤ s.queueD.countP fun f => f.own) ∧ (s.retargets = [] → s.grantable = none)

/-- A member that a fresh neutral step finds IDLE and does not queue: its FAULT flag is set, or it is settled at 0 (R16, R154). -/
def atRest (s : State) (x : Turbine) : Bool :=
  x.live.move == .idle &&
    (x.live.fault ||
      (!x.live.moving &&
        match x.live.applied with
        | some a => decide (a.natAbs ≤ s.params.tolerance)
        | none => false))

/-- The neutral context has a step at the row that is not DONE. -/
def LiveAt (s : State) (r : Nat) : Prop := ∃ k ∈ s.neutral.steps, k.row = r ∧ k.state ≠ .done

/-- What a fresh neutral step at a row makes of a member that is not at rest, with the frames of the event's end placed (R125, R130, R137,
R138, R154): the turbine has the neutral step as owner and target 0; it is QUEUED, if it held no slot; or it is in RETARGET, in the slot it
held, which is now HIGH; or its frame is placed and it is MOVING in a HIGH slot with commanded offset 0 and its deadline pending. -/
def DrivenToZero (r : Nat) (x y : Turbine) : Prop :=
  y.reported = x.reported ∧ y.live.stalled = x.live.stalled ∧ y.live.owner = some (.neutral r) ∧ y.live.target = some 0 ∧
    ((y.live.move = .queued ∧ x.live.move ≠ .moving ∧ y.live.slot = none ∧ y.live.commanded = x.live.commanded) ∨
      (y.live.move = .retarget ∧ x.live.move = .moving ∧ y.live.slot = some .high ∧
        y.live.commanded = x.live.commanded ∧ y.live.deadline = .absent) ∨
      (y.live.move = .moving ∧ y.live.slot = some .high ∧ y.live.commanded = some 0 ∧ y.live.deadline = .pending))

/-- The neutral step that a gain leaves at a row (R154): it needs every member; those at rest are counted settled or faulted; it is DONE when
every member is at rest, RELEASING while one of its turbines is QUEUED, and MOVING otherwise. -/
def GainedStep (s t : State) (k : NeutralStep) : Prop :=
  k.needed = s.turbines.countP (fun x => x.config.row == k.row) ∧
    k.faulted = s.turbines.countP (fun x => x.config.row == k.row && x.live.move == .idle && x.live.fault) ∧
    k.settled = s.turbines.countP (fun x => x.config.row == k.row && atRest s x && !x.live.fault) ∧
    k.stalled = 0 ∧ k.cancelled = 0 ∧
    k.state = (if s.turbines.all fun x => x.config.row != k.row || atRest s x then .done
      else if t.turbines.any fun y => y.config.row == k.row && y.live.move == .queued then .releasing
      else .moving)

/-- The neutral context stays at work when it gains steps at the named rows: it had a live step, or a member of a named row is not at rest
(R151, R152). -/
def staysAtWork (s : State) (named : Nat → Bool) : Bool :=
  (s.neutral.steps.any fun k => k.state != .done) ||
    s.turbines.any fun x => named x.config.row && !atRest s x

/-- What the neutral context and the turbines become when the context gains steps at the named rows with a cause (R151, R152, R154), with the
frames of the event's end placed. A named row with a live step keeps it, with its turbines' owner and target; every other named row has a
fresh step, which drives each member that is not at rest to 0. When no step is left live, the context is cleared. -/
def Gains (s t : State) (named : Nat → Bool) (cause : NeutralCause) : Prop :=
  ArbiterServed t ∧
    (staysAtWork s named = false → t.neutral = ⟨false, none, []⟩) ∧
    (staysAtWork s named = true → t.neutral.active = true ∧ t.neutral.cause = some cause ∧
      (t.neutral.steps.map fun k => k.row) =
        ((List.range 16).filter fun r => named r || s.neutral.steps.any fun k => k.row == r) ∧
      ∀ k ∈ t.neutral.steps,
        (named k.row = true → ¬LiveAt s k.row → GainedStep s t k) ∧
          (named k.row = false ∨ LiveAt s k.row → ∃ old ∈ s.neutral.steps,
            k = { old with state := k.state } ∧ (k.state = old.state ∨ (old.state = .releasing ∧ k.state = .moving)))) ∧
    ∀ x ∈ s.turbines, named x.config.row = true → ∃ y ∈ t.turbines, y.node = x.node ∧
      (¬LiveAt s x.config.row → atRest s x = true → y = x) ∧
      (¬LiveAt s x.config.row → atRest s x = false → DrivenToZero x.config.row x y) ∧
      (LiveAt s x.config.row → y.live.owner = x.live.owner ∧ y.live.target = x.live.target)

/-- A step of a RUNNING wave after an entry to RETURN (R100, R102): WAITING and HOLDING become CANCELLED and lose a pending hold-time request
(R79); RELEASING and MOVING become DONE with SET taken, and count every turbine that they own superseded; a terminal step stands. -/
def returnedStep (s : State) (num : Nat) (st : WaveStep) : WaveStep :=
  match st.state with
  | .waiting | .holding =>
    { st with state := .cancelled, cmpA := if st.cmpA = .pending then .absent else st.cmpA, owesTest := false, owesDeadline := false }
  | .releasing | .moving =>
    { st with
      state := .done, set := some st.hold, owesTest := false, owesDeadline := false
      superseded := st.superseded + owned s (.low num st.row) }
  | .empty | .done | .skipped | .cancelled => st

/-- The WAVE_DONE notices of an entry to RETURN, oldest wave first (R71, R102). -/
def returnedNotices (s : State) : List Notice :=
  (s.waves.filter fun w => w.running).map fun w =>
    waveDoneOf { w with steps := w.steps.map (returnedStep s w.num) }

/-- What an entry to RETURN withdraws from the divider: the pending hold times, and the deadlines of the turbines that it retargets (R102,
R137). -/
def returnWithdraws (s : State) (q : Requester) : Bool :=
  match q with
  | .hold _ _ => pendingHold s q
  | .deadline n => s.turbines.any fun x => x.node == n && x.live.move == .moving && x.live.slot == some .low

/-- What a NEUTRAL request withdraws from the divider: the pending hold times of the steps that it skips (R79, R99), and the deadlines of the
turbines that it retargets (R137). -/
def neutralWithdraws (s : State) (named : Nat → Bool) (q : Requester) : Bool :=
  match q with
  | .hold _ r => named r && pendingHold s q
  | .deadline n =>
    s.turbines.any fun x => x.node == n && named x.config.row && x.live.move == .moving && x.live.slot == some .low

/-- What an entry to RETURN from a state leaves (R102, R149, R150). Every RUNNING wave has completed, oldest first and each with its WAVE_DONE
notice of the steps and counts that the entry left it; the pending hold times of its steps, and the deadlines of the turbines retargeted,
are withdrawn from the divider; no LOW request is left; the neutral context has gained a step at every row; and the MODE notice of the entry follows the waves'.
The mode is RETURN with the cause of the entry while a neutral step is live; when none is, RETURN has ended in the same event and its own
MODE notice follows. -/
def EntersReturn (s t : State) (c : ModeCause) (n : NeutralCause) : Prop :=
  Steady s t ∧ t.waves = [] ∧ t.quiet = none ∧ t.low = [] ∧ Gains s t (fun _ => true) n ∧
    t.counters = { s.counters with done := s.counters.done + BitVec.ofNat 32 (s.waves.countP fun w => w.running) } ∧
    DividerLeaves s t (returnWithdraws s) ∧
      let raised := returnedNotices s
      (staysAtWork s (fun _ => true) = true →
        t.mode = .returning ∧ t.cause = c ∧ t.lapse = s.lapse ∧
          t.queueU = (noticedAll (raised ++ [.mode .returning c]) s).queueU) ∧
      (staysAtWork s (fun _ => true) = false →
        t.mode = .pass ∧ t.cause = .complete ∧ t.lapse = .stopped ∧
          t.queueU = (noticedAll (raised ++ [.mode .returning c, .mode .pass .complete]) s).queueU)

/-- No WAITING step carries the forced mark, which a step takes while it is HOLDING (R86). -/
def WaitingUnforced (s : State) : Prop := ∀ w ∈ s.waves, ∀ st ∈ w.steps, st.state = .waiting → st.forced = false

/-- The step has triggered its successor at its first grant, which took REL, in hold-start mode RELEASE (R80). -/
def hasTriggered (s : State) (w : Wave) (st : WaveStep) : Bool :=
  st.rel.isSome && (w.sector.bind s.plan?).all fun p => p.holdStart == .release

/-- A wave once a step of it has entered DONE as `y`: a WAITING successor enters HOLDING unless the step had triggered it before (R80, R81,
R96). -/
def withDone (s : State) (w : Wave) (y : WaveStep) : Wave :=
  let starts := fun o : WaveStep =>
    !hasTriggered s w y && ((w.successor y.row).map fun n => n.row) == some o.row && o.state == .waiting
  { w with steps := w.steps.map fun o =>
      if o.row = y.row then y
      else if starts o then { o with state := .holding, hold := 0, cmpA := .pending, cmpP := none, owesTest := false, owesDeadline := false }
      else o }

/-- The divider `d` once a step of a wave has entered DONE: the hold-time request of a successor so started is placed (R77, R96). -/
def afterDone (s : State) (w : Wave) (p : Plan) (st : WaveStep) (d : Divider) : Divider :=
  if hasTriggered s w st then d else afterTrigger s w p st.row d

/-- The owner of a turbine whose slot is freed counts it (R94, R155): `a` settled, `b` faulted, `c` stalled. A MOVING step whose counts are then
complete becomes DONE with SET taken and starts a WAITING successor that it has not triggered (R96), whose request follows in the divider
`d` of the freeing; a wave whose other steps are all terminal then leaves the queue (R71), and a neutral context whose other steps are all
DONE is cleared (R151). -/
def OwnerCounts (s t : State) (x : Turbine) (a b c : Nat) (d : Divider) : Prop :=
  (∀ num r, x.live.owner = some (.low num r) → ∀ w ∈ s.waves, w.num = num → ∀ st ∈ w.steps, st.row = r →
    let st1 := { st with settled := st.settled + a, faulted := st.faulted + b, stalled := st.stalled + c }
    let done := st.state = .moving ∧
      st1.needed = st1.settled + st1.stalled + st1.faulted + st1.superseded + st1.cancelled
    (¬done → { w with steps := w.steps.map fun o => if o.row = r then st1 else o } ∈ t.waves ∧ t.divider = d) ∧
      (done → ∀ p, w.sector.bind s.plan? = some p → t.divider = afterDone s w p st d) ∧
      (done → (∃ o ∈ w.steps, o.row ≠ r ∧ o.state.terminal = false) →
        withDone s w { st1 with state := .done, set := some st.hold, owesTest := false, owesDeadline := false } ∈ t.waves) ∧
      (done → (∀ o ∈ w.steps, o.row ≠ r → o.state.terminal = true) → ∀ w' ∈ t.waves, w'.num ≠ num)) ∧
    ∀ r, x.live.owner = some (.neutral r) → t.divider = d ∧ ∀ k ∈ s.neutral.steps, k.row = r →
      let k1 := { k with settled := k.settled + a, faulted := k.faulted + b, stalled := k.stalled + c }
      let k2 := if k.state = .moving ∧ k1.needed = k1.settled + k1.stalled + k1.faulted + k1.cancelled then
        { k1 with state := .done } else k1
      if k2.state = .done ∧ ∀ o ∈ s.neutral.steps, o.row ≠ r → o.state = .done then t.neutral = ⟨false, none, []⟩
      else k2 ∈ t.neutral.steps

/-! ### Requests, written out from their rules -/

/-- The value of a parameter by its number, with the encodings of R177. -/
def parameter (p : Params) (number : Nat) : Option Nat :=
  match number with
  | 1 => some p.controlType
  | 2 => some p.budget
  | 3 => some p.headroom
  | 4 => some p.tolerance
  | 5 => some p.quietTime
  | 6 => some p.lapseTime
  | 7 => some p.staleness
  | 8 => some p.speedShift
  | 9 => some p.directionShift
  | 10 => some p.hysteresis
  | 11 => some p.wThreshold
  | 12 => some p.gThreshold
  | 13 => some p.uCalm
  | 14 => some p.margin
  | 15 => some (match p.stormEdge with | .rising => 0 | .falling => 1 | .both => 2)
  | 16 => some (match p.polarity with | .highActive => 0 | .lowActive => 1)
  | _ => none

/-- The range of a parameter by its number (R177). -/
def parameterRange (number : Nat) : Option (Nat × Nat) :=
  [(1536, 65535), (1, 64), (0, 64), (0, 50), (1, 255), (0, 65535), (1, 255), (1, 8), (1, 8), (0, 75),
    (0, 900), (0, 200), (1, 200), (0, 6000), (0, 2), (0, 1)][number - 1]?.filter fun _ => number ≠ 0

/-- The result of a LOAD TURBINE request, by the checks of R2 in their order. -/
def loadTurbineResult (s : State) (q : TurbineReq) : Result :=
  if s.mode ≠ .pass then .mode
  else if q.node = 0 ∨ q.node = 255 ∨ 15 < q.row.toNat ∨ 31 < q.column.toNat ∨
      (q.format ≠ 1 ∧ q.format ≠ 2 ∧ q.format ≠ 3) ∨ 300 < q.limit.toNat ∨ q.rate = 0 ∨ 200 < q.rate.toNat then .range
  else if q.node = s.nodeAddr then .conflict
  else if 32 ≤ (s.members q.row.toNat).countP (fun n => n != q.node.toNat) then .full
  else if ∃ t ∈ s.turbines, t.node ≠ q.node.toNat ∧ t.config.row = q.row.toNat ∧ t.config.column = q.column.toNat then
    .conflict
  else .ok

/-- The result of a LOAD SOURCES request, by the checks of R22 in their order; entries that the count names and the frame does not
hold are RANGE by R175. -/
def loadSourcesResult (s : State) (number : Byte) (entries : List SourceReq) : Result :=
  let named := entries.take number.toNat
  if s.mode ≠ .pass then .mode
  else if 4 < number.toNat ∨ entries.length < number.toNat ∨
      ∃ x ∈ named, (x.kind ≠ 1 ∧ x.kind ≠ 2) ∨ x.node = 0 ∨ x.node = 255 then .range
  else if ¬(named.map fun x => x.node).Nodup ∨ ∃ x ∈ named, x.node = s.nodeAddr then .conflict
  else .ok

/-- The result of a LOAD PLAN request, by the checks of R50 in their order. -/
def loadPlanResult (s : State) (q : PlanReq) : Result :=
  let named := q.entries.take q.count.toNat
  if s.mode ≠ .pass then .mode
  else if 23 < q.sector.toNat ∨ q.k.toNat < 512 ∨ 1024 < q.k.toNat ∨ (q.holdStart ≠ 0 ∧ q.holdStart ≠ 1) ∨
      q.hmax.toNat < q.hmin.toNat ∨ q.count = 0 ∨ 16 < q.count.toNat ∨ q.entries.length < q.count.toNat ∨
      ∃ x ∈ named, 15 < x.row.toNat ∨ 4095 < x.spacing.toNat ∨ 7 < x.gate.toNat ∨ (x.action ≠ 0 ∧ x.action ≠ 1) then
    .range
  else if ¬(named.map fun x => x.row).Nodup ∨ ∃ x ∈ named, x.gate = 7 ∧ x.slack = 0 then .conflict
  else .ok

/-- The bytes of a plan as LOAD PLAN and READ PLAN lay it out after the sector (R174). -/
def planLayout (p : Plan) : List Byte :=
  num16 p.k ++ [(match p.holdStart with | .release => 0 | .settle => 1 : Byte)] ++ num16 p.hmin ++ num16 p.hmax ++
    [byte p.entries.length] ++
    p.entries.flatMap fun x =>
      [byte x.row] ++ num16 x.spacing ++ [byte x.gate.code] ++ num16 x.slack ++
        [(match x.action with | .release => 0 | .skip => 1 : Byte)]

/-- The number of field bytes that a request needs up to the last field of fixed size it names (R174, R175). -/
def fixedFields (code : Nat) : Nat :=
  [0, 0, 5, 1, 8, 1, 1, 9, 1, 2, 1, 2, 0, 1, 0, 1, 2, 3, 0].getD code 0

/-- The command that a MANAGE frame from an envelope carries with a request, for the requests that are rows of the table. -/
def commandOf (e : Env) : Request → Option Instr
  | .status => some (.status e)
  | .setParam n v => some (.setParam e n v)
  | .getParam n => some (.getParam e n)
  | .loadTurbine q => some (.loadTurbine e q)
  | .dropTurbine n => some (.dropTurbine e n)
  | .loadSources n es => some (.loadSources e n es)
  | .loadPlan q => some (.loadPlan e q)
  | .dropPlan k => some (.dropPlan e k)
  | .readTurbine a n => some (.readTurbine e a n)
  | .readRow r => some (.readRow e r)
  | .readWave p i => some (.readWave e p i)
  | .readNeutral => some (.readNeutral e)
  | .readPlan k => some (.readPlan e k)
  | .readCounts => some (.readCounts e)
  | .mode c =>
    if c = 1 then some (.modeSteer e) else if c = 2 then some (.stopKeep e)
    else if c = 3 then some (.stopNeutral e) else none
  | .neutral rows => some (.neutral e rows)
  | .mask rows op =>
    if op = 1 then some (.maskSet e rows) else if op = 0 then some (.maskClear e rows) else none
  | .restart => some (.restart e)

end Sys2Proof.Machine
end

