-- ==== Sys2Proof/Certificates/Slice0/Obligations.lean ====
section
/-! DEFINITION. The statements for the provers: what the rules of spec/ say of each command, and what every step keeps. -/

open Sys2Proof Sys2Proof.Machine

/-! ### The step and what every step keeps -/

/-- A step takes the command at the front of the queue and runs it with the queue's rest. On an empty queue the unit idles: that clause
is the model's choice (notes/assumptions/1.md). -/
def Obligations.StepRunsFrontCommand : Prop :=
  (∀ (c : Instr) (rest : List Instr) (s : State),
    step { s with pending := c :: rest } = exec c { s with pending := rest }) ∧
    ∀ s : State, s.pending = [] → step s = .next s

/-- The invariants below hold of the reset state. -/
def Obligations.InvariantsHoldAtReset : Prop :=
  QueueBounds State.reset ∧ ParamRanges State.reset ∧ EstimateRanges State.reset ∧ WavesOk State.reset ∧
    StepsInOrder State.reset ∧ OneActiveStep State.reset ∧ MotionFollowsSlots State.reset ∧
    WithinBudget State.reset ∧ RowTableOk State.reset ∧ ArbiterOk State.reset

/-- R167: forwarded frames in D's output queue never number more than 24 and the part's own frames there never more than 8; in U's queue 28
and 4. -/
def Obligations.QueueBoundsKept : Prop := KeptByStep QueueBounds

/-- R177, R178: every parameter stays in its range. -/
def Obligations.ParamRangesKept : Prop := KeptByStep ParamRanges

/-- R29, R30, R32: the accumulators stay within 0 to 153,600 and 0 to 921,599 and the sector within 0 to 23. -/
def Obligations.EstimateRangesKept : Prop := KeptByStep EstimateRanges

/-- R55, R59: at most four records with distinct numbers, and a FORMING record only as the youngest. -/
def Obligations.WaveQueueOrderKept : Prop := KeptByStep WavesOk

/-- R82: in every wave, no step is RELEASING, MOVING or DONE while an earlier one is WAITING or HOLDING. -/
def Obligations.StepOrderKept : Prop := KeptByStep StepsInOrder

/-- R83: at each row at most one step, counting all waves and the neutral context, is RELEASING or MOVING. -/
def Obligations.OneActiveStepKept : Prop := KeptByStep OneActiveStep

/-- R140: the MOTION line follows the slot count. -/
def Obligations.MotionFollowsSlotsKept : Prop := KeptByStep MotionFollowsSlots

/-- R120, R122, R124, R143: the bookkeeping of the release arbiter is kept by every step: the slots lie within the budget and are
those of the turbines MOVING or in RETARGET, class by class; the request lists and the retarget list name exactly the turbines that
wait, each once; every owner is a live step whose counts account for it; and in PASS there is no wave, no request and no slot. By
itself, too: over a step that leaves B and Bh as they are, the slot count never exceeds B + Bh and the LOW slots never exceed B. -/
def Obligations.BudgetKept : Prop :=
  (∀ s t : State, WithinBudget s → step s = .next t → t.params.budget = s.params.budget →
    t.params.headroom = s.params.headroom → WithinBudget t) ∧ KeptByStep ArbiterOk

/-- R1, R18: the turbine table stays in node order and each member list stays the nodes of its row's entries in column order. -/
def Obligations.RowTableKept : Prop := KeptByStep RowTableOk

/-- R2, R4, R22, R50, R52, R178: outside PASS no command but POWER_ON changes the loaded configuration or a parameter marked PASS. -/
def Obligations.ConfigurationFrozenOutsidePass : Prop :=
  ∀ (s t : State) (c : Instr) (rest : List Instr), s.mode ≠ .pass → s.pending = c :: rest →
    (∀ a b d e f, c ≠ .powerOn a b d e f) → step s = .next t →
    (t.turbines.map fun x => (x.node, x.config)) = (s.turbines.map fun x => (x.node, x.config)) ∧
      (∀ r, t.members r = s.members r) ∧ t.plans = s.plans ∧
      (t.sources.map fun x => (x.kind, x.node)) = (s.sources.map fun x => (x.kind, x.node)) ∧
      t.params.budget = s.params.budget ∧ t.params.headroom = s.params.headroom ∧
      t.params.stormEdge = s.params.stormEdge ∧ t.params.polarity = s.params.polarity ∧ t.nodeAddr = s.nodeAddr

/-- While RSTN is held, the line path carries no frames (R171), and in this model no other event comes about either
(notes/assumptions/7.md): every command but POWER_ON leaves the state as it is. -/
def Obligations.HeldUnitDoesNothing : Prop :=
  ∀ (c : Instr) (s : State), s.relayClosed = true → (∀ a b d e f, c ≠ .powerOn a b d e f) → exec c s = .next s

/-! ### Frames and their bytes -/

/-- R162, R174: a SETPOINT frame on U, and a REPORT or MET frame on D, whose bytes are laid out by R174, is the command of its row.
What a row of a frame kind stands for is the model's choice (notes/assumptions/18.md). -/
def Obligations.FramesAreCommands : Prop :=
  ∀ s : State, s.params.controlType ≤ 65535 →
    (∀ (a : Addr) (items : List Item), items.length ≤ 256 →
      exec (.frameReceived .u (controlFrame s.params.controlType 1 a (itemBytes items))) s =
        exec (.setpointFrame a items) s) ∧
    (∀ (a : Addr) (r : ReportBody),
      exec (.frameReceived .d (controlFrame s.params.controlType 2 a (reportBytes r))) s = exec (.reportFrame a r) s) ∧
    ∀ (a : Addr) (m : MetBody),
      exec (.frameReceived .d (controlFrame s.params.controlType 3 a (metBytes m))) s = exec (.metFrame a m) s

/-- R170, R174, R175: a MANAGE frame on U, addressed to the unit and laid out by R174, is the command of its request's row. What a row
of a request stands for is the model's choice (notes/assumptions/18.md). -/
def Obligations.ManageFramesAreCommands : Prop :=
  ∀ (s : State) (e : Env), s.params.controlType ≤ 65535 →
    (∀ (q : Request) (c : Instr), 2 + q.fields.length ≤ 1024 → commandOf e q = some c →
      exec (.frameReceived .u (s.manageFrame e q.code q.fields)) s = exec c s) ∧
    ∀ (code : Byte) (fields : List Byte), 2 + fields.length ≤ 1024 →
      exec (.frameReceived .u (s.manageFrame e code fields)) s = exec (.unknownRequest e code fields) s

/-- R12, R13, R14, R15: the three value formats, received and commanded, and the clamping of a yaw item. -/
def Obligations.ValueFormats : Prop :=
  (∀ v : BitVec 16, Format.d1.receive v = max (-300) (min 300 v.toInt)) ∧
    (∀ v : BitVec 16, ∃ q : Int, Format.d2.receive v = max (-300) (min 300 q) ∧ (10 * q - v.toInt).natAbs ≤ 5 ∧
      ((10 * q - v.toInt).natAbs = 5 → v.toInt.natAbs < (10 * q).natAbs)) ∧
    (∀ v : BitVec 16, Format.b1.receive v = max (-300) (min 300 ((v.toNat : Int) - 32768))) ∧
    (∀ x : Int, -300 ≤ x → x ≤ 300 →
      (Format.d1.command x).toInt = x ∧ (Format.d2.command x).toInt = 10 * x ∧
        ((Format.b1.command x).toNat : Int) = 32768 + x ∧ ∀ f : Format, f.receive (f.command x) = x) ∧
    ∀ (c : TurbineConfig) (v : BitVec 16),
      c.itemTarget v = max (-(c.limit : Int)) (min (c.limit : Int) (c.format.receive v))

/-- R108: the sixteen trials find the largest whole number from 0 to 65535 whose product with the divisor does not exceed the numerator, and
no product reaches 2 to the power 40. -/
def Obligations.DividerQuotient : Prop :=
  ∀ n d : Nat, 0 < d →
    (trials n d 0 ≤ 65535 ∧ trials n d 0 * d ≤ n ∧ ∀ k, k ≤ 65535 → k * d ≤ n → k ≤ trials n d 0) ∧
      (n / d < 65536 → trials n d 0 = n / d) ∧ (65535 ≤ n / d → trials n d 0 = 65535) ∧
      (n < d → trials n d 0 = 0) ∧ (d ≤ 1048575 → ∀ k, k ≤ 65535 → k * d < 2 ^ 40)

/-- R43 to R48, R82, R83: when the gate of a step is satisfied, condition by condition; which step is its predecessor and which its
successor, the nearest one before or after it that is not EMPTY, an EMPTY step having neither; and the five release conditions of a
HOLDING step, one by one. -/
def Obligations.GateAndReleaseConditions : Prop :=
  (∀ (s : State) (w : Wave) (st : WaveStep),
    s.gateSatisfied w st = true ↔
      st.gate ≠ .deadline ∧ (∃ a, st.cmpA = .value a ∧ a ≤ st.hold) ∧
        ((st.gate = .settled ∨ st.gate = .settledSteady) →
          ∀ p, w.predecessor st.row = some p → p.state = .done ∨ p.state = .skipped) ∧
        ((st.gate = .still ∨ st.gate = .stillSteady) →
          ∀ p, w.predecessor st.row = some p → ∀ n ∈ s.members p.row, ∀ x, s.turbine? n = some x →
            x.live.moving = false) ∧
        ((st.gate = .direction ∨ st.gate = .steady ∨ st.gate = .settledSteady ∨ st.gate = .stillSteady) →
          w.latchW = false) ∧
        ((st.gate = .steady ∨ st.gate = .settledSteady ∨ st.gate = .stillSteady) → w.latchG = false)) ∧
    (∀ (w : Wave) (pre mid post : List WaveStep) (p st : WaveStep), w.steps = pre ++ p :: (mid ++ st :: post) →
      (w.steps.map fun x => x.row).Nodup → st.state ≠ .empty → p.state ≠ .empty → (∀ m ∈ mid, m.state = .empty) →
      w.predecessor st.row = some p) ∧
    (∀ (w : Wave) (pre post : List WaveStep) (st : WaveStep), w.steps = pre ++ st :: post →
      (w.steps.map fun x => x.row).Nodup → (∀ m ∈ pre, m.state = .empty) → w.predecessor st.row = none) ∧
    (∀ (w : Wave) (pre mid post : List WaveStep) (st n : WaveStep), w.steps = pre ++ st :: (mid ++ n :: post) →
      (w.steps.map fun x => x.row).Nodup → st.state ≠ .empty → n.state ≠ .empty → (∀ m ∈ mid, m.state = .empty) →
      w.successor st.row = some n) ∧
    (∀ (w : Wave) (pre post : List WaveStep) (st : WaveStep), w.steps = pre ++ st :: post →
      (w.steps.map fun x => x.row).Nodup → (∀ m ∈ post, m.state = .empty) → w.successor st.row = none) ∧
    (∀ (w : Wave) (st : WaveStep), st ∈ w.steps → (w.steps.map fun x => x.row).Nodup → st.state = .empty →
      w.predecessor st.row = none ∧ w.successor st.row = none) ∧
    ∀ (s : State) (older younger : List Wave) (w : Wave) (pre post : List WaveStep) (st : WaveStep),
      s.waves = older ++ w :: younger → (s.waves.map fun x => x.num).Nodup → w.running = true →
      w.steps = pre ++ st :: post → (w.steps.map fun x => x.row).Nodup → st.state = .holding →
      (s.canRelease w.num st.row = true ↔
        (st.forced = true ∨ s.gateSatisfied w st = true) ∧ s.mark = .fresh ∧
          ((∀ o ∈ older, ∀ x ∈ o.steps, x.row = st.row → x.state.terminal = true) ∧
            ∀ n ∈ s.neutral.steps, n.row = st.row → n.state = .done) ∧
          s.masked st.row = false ∧ ∀ x ∈ pre, ¬x.state.unreleased)

/-- R162, R163, R168, R171, R172, R158: a frame with a wrong check sequence, or at a port that takes none, changes nothing; a frame of
another type, or of another version with a complete header, is forwarded unchanged and not acted on; and a malformed frame is counted
at its port and forwarded unchanged, one on U with a complete header still reaching the lapse timer. That no frame arrives on port U
while its link is down is the model's reading (notes/assumptions/19.md). -/
def Obligations.FramesNotActedOn : Prop :=
  ∀ (p : Port) (f : EthFrame) (s : State),
    (¬Takes p s ∨ f.fcs ≠ checkSequence f.dst f.src f.etype f.payload → exec (.frameReceived p f) s = .next s) ∧
    (Takes p s → f.fcs = checkSequence f.dst f.src f.etype f.payload →
      ((f.etype.toNat ≠ s.params.controlType ∨ (8 ≤ f.payload.length ∧ f.payload.head? ≠ some 2)) →
        exec (.frameReceived p f) s = .next (forwarded p f s)) ∧
      (f.etype.toNat = s.params.controlType → f.payload.length < 8 →
        exec (.frameReceived p f) s = .next (forwarded p f (malformedOn p s))) ∧
      ∀ (kind dest src set flags l1 l0 : Byte) (rest : List Byte), f.etype.toNat = s.params.controlType →
        f.payload = 2 :: kind :: dest :: src :: set :: flags :: l1 :: l0 :: rest →
        (1024 < (be16 l1 l0).toNat ∨ rest.length < (be16 l1 l0).toNat ∨ kind = 0 ∨ 6 < kind.toNat ∨
          (kind = 1 ∧ (be16 l1 l0).toNat % 4 ≠ 0) ∨ (kind = 2 ∧ (be16 l1 l0).toNat < 8) ∨
          (kind = 3 ∧ (be16 l1 l0).toNat < 5) ∨ (kind = 4 ∧ (be16 l1 l0).toNat < 2) ∨
          (kind = 5 ∧ (be16 l1 l0).toNat < 3) ∨ (kind = 6 ∧ (be16 l1 l0).toNat < 1)) →
        exec (.frameReceived p f) s = .next (forwarded p f (malformedOn p (heardOn p src s))))

/-- R164, R170, R172: the frames that pass classification and that no block of the unit acts on, by their kind and port: forwarded
unchanged, but for a MANAGE frame addressed to the unit that arrives on D, which is discarded and counted. -/
def Obligations.DisposalByKindAndPort : Prop :=
  ∀ (s : State) (p : Port) (a : Addr), Takes p s → s.params.controlType ≤ 65535 →
    let frame := fun kind body => controlFrame s.params.controlType kind a body
    (∀ items : List Item, p = .d → items.length ≤ 256 →
      exec (.frameReceived p (frame 1 (itemBytes items))) s = .next (forwarded p (frame 1 (itemBytes items)) s)) ∧
    (∀ r : ReportBody, p = .u →
      exec (.frameReceived p (frame 2 (reportBytes r))) s =
        .next (forwarded p (frame 2 (reportBytes r)) (heardFrom a.src s))) ∧
    (∀ m : MetBody, p = .u →
      exec (.frameReceived p (frame 3 (metBytes m))) s =
        .next (forwarded p (frame 3 (metBytes m)) (heardFrom a.src s))) ∧
    (∀ body : List Byte, 2 ≤ body.length → body.length ≤ 1024 →
      (a.dest ≠ s.nodeAddr ∨ s.nodeAddr = 0 ∨ s.nodeAddr = 255) →
      exec (.frameReceived p (frame 4 body)) s = .next (forwarded p (frame 4 body) (heardOn p a.src s))) ∧
    (∀ body : List Byte, p = .d → 2 ≤ body.length → body.length ≤ 1024 → a.dest = s.nodeAddr → s.nodeAddr ≠ 0 →
      s.nodeAddr ≠ 255 →
      exec (.frameReceived p (frame 4 body)) s = .next { s with discardedManage := s.discardedManage + 1 }) ∧
    (∀ body : List Byte, 3 ≤ body.length → body.length ≤ 1024 →
      exec (.frameReceived p (frame 5 body)) s = .next (forwarded p (frame 5 body) (heardOn p a.src s))) ∧
    ∀ body : List Byte, 1 ≤ body.length → body.length ≤ 1024 →
      exec (.frameReceived p (frame 6 body)) s = .next (forwarded p (frame 6 body) (heardOn p a.src s))

/-! ### SETPOINT frames and the intake -/

/-- R58, R165: which items of a SETPOINT frame on U are taken, and what is forwarded: the frame unchanged in PASS or with no item taken, and
otherwise the frame with the items left, or nothing when none is left. In DRAIN and RETURN the taken items change nothing else. -/
def Obligations.SetpointForwarding : Prop :=
  ∀ (s : State) (a : Addr) (items : List Item), Takes .u s →
    let frame := fun l => controlFrame s.params.controlType 1 a (itemBytes l)
    let taken := items.filter s.takes
    let left := items.filter fun i => !s.takes i
    (∀ i : Item, s.takes i = true ↔ i.quantity = 1 ∧ ∃ x ∈ s.turbines, x.node = i.node.toNat) ∧
    ((s.mode = .pass ∨ taken = []) →
      exec (.setpointFrame a items) s = .next (forwarded .u (frame items) (heardFrom a.src s))) ∧
    ((s.mode = .drain ∨ s.mode = .returning) → taken ≠ [] →
      exec (.setpointFrame a items) s =
        .next (if left = [] then heardFrom a.src s else forwarded .u (frame left) (heardFrom a.src s))) ∧
    (s.mode = .steer → taken ≠ [] → ∃ t : State,
      exec (.setpointFrame a items) s = .next (if left = [] then t else forwarded .u (frame left) t) ∧
        t.queueD = s.queueD ∧ t.countersU = s.countersU)

/-- R58 to R64: gathering in STEER. With no wave FORMING and fewer than four records, the taken items of a frame without LAST open a
FORMING wave with the frame's set number and the first wave number from the counter on that no record holds; its target map holds, in
node order, the last target of the frame for each node; the quiet timer starts from 0. The taken items of a frame of the FORMING
wave's set go into its target map and restart the quiet timer, and change nothing else. A frame with LAST whose items went into the
FORMING wave then closes it as the timer's expiry does. A frame of another set first closes the FORMING wave so, and is then handled
on the queue that the close left. -/
def Obligations.SetpointOpensWave : Prop :=
  (∀ (s : State) (a : Addr) (items : List Item), Takes .u s → s.mode = .steer →
    (∀ w ∈ s.waves, w.running = true) → s.waves.length < 4 → a.flags.getLsbD 0 = false →
    items.filter s.takes ≠ [] →
    ∃ (t : State) (w : Wave), exec (.setpointFrame a items) s = .next t ∧ t.waves = s.waves ++ [w] ∧
      w.set = a.set.toNat ∧ w.running = false ∧ w.sector = none ∧ w.steps = [] ∧ w.folds = 0 ∧ w.drops = 0 ∧
      (∀ x ∈ s.waves, x.num ≠ w.num) ∧ ((∀ x ∈ s.waves, x.num ≠ s.waveCounter) → w.num = s.waveCounter) ∧
      (s.waveCounter ≤ 255 → ∃ j, w.num = (s.waveCounter + j) % 256 ∧
        ∀ i, i < j → ∃ x ∈ s.waves, x.num = (s.waveCounter + i) % 256) ∧
      t.waveCounter = (w.num + 1) % 256 ∧ (w.targets.map fun q => q.1).Pairwise (· < ·) ∧
      (∀ node : Nat, targetIn w.targets node =
        ((items.filter s.takes).reverse.find? fun i => i.node.toNat == node).map s.targetOf) ∧
      (∀ i ∈ items, ∀ x, s.turbine? i.node.toNat = some x → s.targetOf i = x.config.itemTarget i.value) ∧
      t.quiet = some 0 ∧ t.mode = .steer ∧ t.neutral = s.neutral ∧ t.divider = s.divider ∧ t.high = s.high ∧
      t.low = s.low ∧ t.queueU = s.queueU ∧ t.turbines = s.turbines ∧
      Steady { s with waveCounter := t.waveCounter, countersU := t.countersU } t) ∧
  (∀ (s : State) (a : Addr) (items : List Item) (older : List Wave) (w : Wave), Takes .u s → s.mode = .steer →
    WavesOk s → s.waves = older ++ [w] → w.running = false → w.set = a.set.toNat → a.flags.getLsbD 0 = false →
    items.filter s.takes ≠ [] → (w.targets.map fun q => q.1).Pairwise (· < ·) →
    let left := items.filter fun i => !s.takes i
    ∃ targets : List (Nat × Int), (targets.map fun q => q.1).Pairwise (· < ·) ∧
      (∀ node : Nat, targetIn targets node =
        (((items.filter s.takes).reverse.find? fun i => i.node.toNat == node).map s.targetOf).or (targetIn w.targets node)) ∧
      let t := { heardFrom a.src s with waves := older ++ [{ w with targets := targets }], quiet := some 0, quietDue := false }
      exec (.setpointFrame a items) s =
        .next (if left = [] then t else forwarded .u (controlFrame s.params.controlType 1 a (itemBytes left)) t)) ∧
  (∀ (s : State) (a : Addr) (items : List Item), Takes .u s → s.mode = .steer → WavesOk s →
    a.flags.getLsbD 0 = true → items.filter s.takes ≠ [] →
    s.waves.length < 4 ∨ (∃ w ∈ s.waves, w.running = false ∧ w.set = a.set.toNat) →
    (∀ w ∈ s.waves, w.running = false → w.set = a.set.toNat) →
    let left := items.filter fun i => !s.takes i
    ∃ gathered t : State,
      exec (.setpointFrame { a with flags := 0 } (items.filter s.takes)) s = .next gathered ∧
      exec .quietTimerExpiry { gathered with quietDue := true } = .next t ∧
      exec (.setpointFrame a items) s =
        .next (if left = [] then t else forwarded .u (controlFrame s.params.controlType 1 a (itemBytes left)) t)) ∧
  ∀ (s : State) (a : Addr) (items : List Item) (w : Wave), Takes .u s → s.mode = .steer → WavesOk s → w ∈ s.waves →
    w.running = false → w.set ≠ a.set.toNat → items.filter s.takes ≠ [] →
    ∃ closed : State, exec .quietTimerExpiry { s with quietDue := true } = .next closed ∧
      exec (.setpointFrame a items) s = exec (.setpointFrame a items) closed

/-- R69, R70, R183: in STEER, with four RUNNING records, the taken items of a frame are offered to the youngest wave: an item whose
row's step is WAITING or HOLDING replaces or adds its node's target and counts as folded, any other counts as dropped; one WAVE_FOLDED
notice is built, and nothing else of the queue changes. -/
def Obligations.SetpointFoldsIntoYoungest : Prop :=
  ∀ (s : State) (a : Addr) (items : List Item) (older : List Wave) (w : Wave), Takes .u s → s.mode = .steer →
    WavesOk s → s.waves = older ++ [w] → older.length = 3 → w.running = true → items.filter s.takes ≠ [] →
    let taken := items.filter s.takes
    let folding := taken.filter (s.folds w.num)
    (∀ i ∈ taken, s.folds w.num i = true ↔
      ∃ x st, s.turbine? i.node.toNat = some x ∧ st ∈ w.steps ∧ st.row = x.config.row ∧ st.state.unreleased) ∧
    ∃ (t : State) (w' : Wave), exec (.setpointFrame a items) s = .next t ∧ t.waves = older ++ [w'] ∧
      w' = { w with targets := w'.targets, folds := w'.folds, drops := w'.drops } ∧
      (∀ node : Nat, targetIn w'.targets node =
        ((folding.reverse.find? fun i => i.node.toNat == node).map s.targetOf).or (targetIn w.targets node)) ∧
      (w.folds ≤ 65535 → w'.folds = min 65535 (w.folds + folding.length)) ∧
      (w.drops ≤ 65535 → w'.drops = min 65535 (w.drops + (taken.length - folding.length))) ∧
      t.counters = { s.counters with
        folded := s.counters.folded + BitVec.ofNat 32 folding.length
        dropped := s.counters.dropped + BitVec.ofNat 32 (taken.length - folding.length) } ∧
      t.queueU = (noticed (.waveFolded w.num a.set.toNat folding.length (taken.length - folding.length)) s).queueU ∧
      t.waveCounter = s.waveCounter ∧ t.quiet = s.quiet ∧ t.neutral = s.neutral ∧ t.divider = s.divider ∧
      t.high = s.high ∧ t.low = s.low ∧ t.turbines = s.turbines ∧ t.mode = .steer

/-- R63, R65: the expiry of the quiet timer under an absent or uncovered sector discards the FORMING wave, stops the timer and builds
an UNCOVERED notice, and changes nothing else; a timer that has not expired changes nothing. That the command changes nothing where
its condition does not hold is the model's choice (notes/assumptions/10.md). -/
def Obligations.QuietExpiryDiscardsUncovered : Prop :=
  (∀ s : State, s.quietDue = false → exec .quietTimerExpiry s = .next s) ∧
  ∀ (s : State) (older : List Wave) (w : Wave), s.relayClosed = false → s.quietDue = true →
    s.waves = older ++ [w] → (∀ x ∈ older, x.running = true) → w.running = false →
    (∀ k ∈ s.sector, s.plan? k = none) →
    exec .quietTimerExpiry s =
      .next (noticed (.uncovered w.num w.set s.sector w.targets.length)
        { s with waves := older, quiet := none, quietDue := false })

/-- R63, R66, R67, R68, R35: the expiry of the quiet timer under a covered sector closes the FORMING wave: its steps are built from the
plan's entries, with the effective spacings of R67; the first step with work enters HOLDING with its hold-time request placed; the
references and latches are taken; the targets outside the order are removed and counted; and a wave without work is done at its
close. -/
def Obligations.QuietExpiryClosesCovered : Prop :=
  ∀ (s : State) (older : List Wave) (w : Wave) (k : Nat) (p : Plan), s.relayClosed = false → s.quietDue = true →
    WavesOk s → NoneFinished s → s.waves = older ++ [w] → w.running = false → s.sector = some k →
    s.plan? k = some p →
    ((∃ e ∈ p.entries, HasWork s w.targets e) → ∃ (t : State) (w' : Wave),
      exec .quietTimerExpiry s = .next t ∧ t.waves = older ++ [w'] ∧ w'.num = w.num ∧ w'.set = w.set ∧
        w'.running = true ∧ w'.sector = some k ∧ w'.dRef = some s.df ∧ w'.uRef = some s.uf ∧
        w'.latchW = false ∧ w'.latchG = false ∧
        (∀ q, q ∈ w'.targets ↔ q ∈ w.targets ∧
          ∃ x, s.turbine? q.1 = some x ∧ ∃ e ∈ p.entries, e.row = x.config.row) ∧
        w'.outside + w'.targets.length = w.targets.length ∧
        (w'.steps.map fun st => (st.row, st.gate, st.action)) = (p.entries.map fun e => (e.row, e.gate, e.action)) ∧
        (∀ e ∈ p.entries, ¬HasWork s w.targets e → ∃ st ∈ w'.steps, st.row = e.row ∧ st.state = .empty) ∧
        (∀ pre e post, p.entries = pre ++ e :: post → (∀ x ∈ pre, ¬HasWork s w.targets x) → HasWork s w.targets e →
          (∃ st ∈ w'.steps, st.row = e.row ∧ st.state = .holding ∧ st.spacing = 0 ∧ st.hold = 0 ∧
            st.cmpA = .pending ∧ st.cmpP = none) ∧
          t.divider = s.divider.place ⟨.hold w.num e.row, 0, p.k * max s.uf s.params.uCalm⟩) ∧
        (∀ pre e mid e' post, p.entries = pre ++ e :: (mid ++ e' :: post) → HasWork s w.targets e →
          (∀ x ∈ mid, ¬HasWork s w.targets x) → HasWork s w.targets e' →
          ∃ st ∈ w'.steps, st.row = e'.row ∧ st.state = .waiting ∧
            st.spacing = min 8191 (((mid ++ [e']).map fun x => x.spacing).sum)) ∧
        t.quiet = none ∧ t.counters = { s.counters with closed := s.counters.closed + 1 } ∧
        t.queueU = (noticed (.waveClosed w.num w.set k (w'.steps.countP fun st => st.state != .empty) w'.outside)
          s).queueU ∧
        t.turbines = s.turbines ∧ t.high = s.high ∧ t.low = s.low ∧ t.neutral = s.neutral ∧ t.mode = s.mode) ∧
    ((∀ e ∈ p.entries, ¬HasWork s w.targets e) → ∃ t : State,
      exec .quietTimerExpiry s = .next t ∧ t.waves = older ∧ t.quiet = none ∧ t.divider = s.divider ∧
        t.counters = { s.counters with closed := s.counters.closed + 1, done := s.counters.done + 1 } ∧
        t.turbines = s.turbines ∧ t.high = s.high ∧ t.low = s.low ∧ t.neutral = s.neutral ∧ t.mode = s.mode)

/-! ### Reports and observations -/

/-- R7, R8, R11, R24, R164, R166: a REPORT frame on D updates the record of its source node's entry and the reading of a NACELLE
source at that node, clears STALLED there when the report passes the settle test against the record's target, is forwarded to U, and
leaves every other record's node, configuration, reported fields and STALLED, every other reading and every setting as they were. The
move side of a record may follow the report and the grants at the event's end. -/
def Obligations.ReportUpdatesRecord : Prop :=
  ∀ (s : State) (a : Addr) (r : ReportBody), Takes .d s → (s.turbines.map fun x => x.node).Nodup →
    ∃ t : State, exec (.reportFrame a r) s = .next t ∧
      t.turbines.map Turbine.reported = (s.turbines.map fun x =>
        if x.node = a.src.toNat then
          (x.node, x.config, some (x.config.format.receive r.offset), r.motion != 0,
            (if r.state = 0 then TurbineState.producing else if r.state = 1 then .standby else .fault), 0,
            r.state != 0 && r.state != 1)
        else x.reported) ∧
      (t.turbines.map fun y => (y.node, y.live.stalled)) = (s.turbines.map fun x =>
        (x.node, x.live.stalled && !(x.node == a.src.toNat && r.motion == 0 &&
          match x.live.target with
          | some g => decide ((x.config.format.receive r.offset - g).natAbs ≤ s.params.tolerance)
          | none => false))) ∧
      t.sources = (s.sources.map fun x =>
        if x.kind = .nacelle ∧ x.node = a.src.toNat ∧ r.state = 0 ∧ r.direction.toNat < 3600 then
          { x with reading := some (min 600 r.speed.toNat, r.direction.toNat), age := 0 }
        else x) ∧
      t.countersD = (if s.queueU.countP (fun f => !f.own) < 28 then
          { s.countersD with forwarded := s.countersD.forwarded + 1 }
        else { s.countersD with dropped := s.countersD.dropped + 1 }) ∧
      (s.queueU.countP (fun f => !f.own) < 28 →
        ⟨false, controlFrame s.params.controlType 2 a (reportBytes r)⟩ ∈ t.queueU) ∧
      t.quiet = s.quiet ∧
      Steady { s with turbines := t.turbines, sources := t.sources, countersD := t.countersD } t

/-- R10, R80, R81, R94, R95, R96, R115, R116, R133, R134, R136, R139, R155: reports of a turbine that holds a slot, said where no step
is HOLDING. A settle report or a fault report of a MOVING turbine frees its slot: the counts of slots and MOTION follow, the record
becomes IDLE without owner, slot class and deadline, its target and commanded offset stay, a waiting DEADLINE request leaves the
divider's list and one in service is marked for discard, no other record changes, and the owner counts the turbine settled or faulted
and, when it is complete, ends and starts a WAITING successor that it has not triggered. A moving report frees nothing, and a LOW owner
without MOV captures it. A report of a turbine stopped short is none of the three and leaves the slot held and the deadline running. In
RETARGET, with no own place free, a fault report takes the turbine off the retarget list and frees its slot, and any other report
changes nothing at the arbiter. -/
def Obligations.ReportFreesSlot : Prop :=
  (∀ (s : State) (a : Addr) (r : ReportBody) (x : Turbine) (c : SlotClass), Takes .d s →
    (s.turbines.map fun y => y.node).Nodup → x ∈ s.turbines → x.node = a.src.toNat → x.live.move = .moving →
    x.live.slot = some c → NothingQueued s → NoHolding s → WaitingUnforced s →
    (2 ≤ r.state.toNat ∨ (r.motion = 0 ∧ ∃ g, x.live.target = some g ∧
      (x.config.format.receive r.offset - g).natAbs ≤ s.params.tolerance)) →
    ∃ (t : State) (y : Turbine), exec (.reportFrame a r) s = .next t ∧ y ∈ t.turbines ∧ y.node = x.node ∧
      y.live.move = .idle ∧ y.live.owner = none ∧ y.live.slot = none ∧ y.live.deadline = .absent ∧
      y.live.target = x.live.target ∧ y.live.commanded = x.live.commanded ∧
      t.lowSlots = s.lowSlots - (if c = .low then 1 else 0) ∧
      t.highSlots = s.highSlots - (if c = .high then 1 else 0) ∧
      t.motion = decide (0 < t.lowSlots + t.highSlots) ∧
      (NoneUnreleased s → t.divider = withdrawn (fun q => q == .deadline x.node) s.divider) ∧ NothingQueued t ∧
      (∀ z ∈ s.turbines, z.node ≠ x.node → z ∈ t.turbines) ∧
      (WavesOk s → (s.neutral.steps.map fun k => k.row).Nodup →
        OwnerCounts s t x (if 2 ≤ r.state.toNat then 0 else 1) (if 2 ≤ r.state.toNat then 1 else 0) 0
          (withdrawn (fun q => q == .deadline x.node) s.divider))) ∧
  (∀ (s : State) (a : Addr) (r : ReportBody) (x : Turbine), Takes .d s → (s.turbines.map fun y => y.node).Nodup →
    x ∈ s.turbines → x.node = a.src.toNat → x.live.move = .moving → NothingQueued s → NoHolding s →
    r.state.toNat ≤ 1 → r.motion ≠ 0 →
    ∃ (t : State) (y : Turbine), exec (.reportFrame a r) s = .next t ∧ y ∈ t.turbines ∧ y.node = x.node ∧
      y.live.move = .moving ∧ y.live.slot = x.live.slot ∧ y.live.owner = x.live.owner ∧
      y.live.deadline = x.live.deadline ∧ y.live.target = x.live.target ∧ t.lowSlots = s.lowSlots ∧
      t.highSlots = s.highSlots ∧ t.motion = s.motion ∧ t.divider = s.divider ∧ t.neutral = s.neutral ∧
      t.waves = s.waves.map fun w =>
        { w with steps := w.steps.map fun st =>
            if x.live.owner = some (.low w.num st.row) ∧ (st.state = .releasing ∨ st.state = .moving) ∧ st.mov = none then
              { st with mov := some st.hold }
            else st }) ∧
  (∀ (s : State) (a : Addr) (r : ReportBody) (x : Turbine), Takes .d s → (s.turbines.map fun y => y.node).Nodup →
    x ∈ s.turbines → x.node = a.src.toNat → x.live.move = .moving → NothingQueued s → NoHolding s →
    r.state.toNat ≤ 1 → r.motion = 0 →
    (∀ g, x.live.target = some g → s.params.tolerance < (x.config.format.receive r.offset - g).natAbs) →
    ∃ (t : State) (y : Turbine), exec (.reportFrame a r) s = .next t ∧ y ∈ t.turbines ∧ y.node = x.node ∧
      y.live.move = .moving ∧ y.live.slot = x.live.slot ∧ y.live.owner = x.live.owner ∧
      y.live.deadline = x.live.deadline ∧ y.live.target = x.live.target ∧ y.live.commanded = x.live.commanded ∧
      t.lowSlots = s.lowSlots ∧ t.highSlots = s.highSlots ∧ t.motion = s.motion ∧ t.divider = s.divider ∧
      t.neutral = s.neutral ∧ t.waves = s.waves) ∧
  ∀ (s : State) (a : Addr) (r : ReportBody) (x : Turbine), Takes .d s → (s.turbines.map fun y => y.node).Nodup →
    x ∈ s.turbines → x.node = a.src.toNat → x.live.move = .retarget → x.live.slot = some .high →
    8 ≤ s.queueD.countP (fun f => f.own) → NoHolding s → WaitingUnforced s →
    ∃ (t : State) (y : Turbine), exec (.reportFrame a r) s = .next t ∧ y ∈ t.turbines ∧ y.node = x.node ∧
      y.live.target = x.live.target ∧ y.live.commanded = x.live.commanded ∧ t.high = s.high ∧ t.low = s.low ∧
      t.lowSlots = s.lowSlots ∧ t.queueD = s.queueD ∧
      (r.state.toNat ≤ 1 → y.live.move = .retarget ∧ y.live.slot = some .high ∧ y.live.owner = x.live.owner ∧
        t.retargets = s.retargets ∧ t.highSlots = s.highSlots ∧ t.waves = s.waves ∧ t.neutral = s.neutral) ∧
      (2 ≤ r.state.toNat → y.live.move = .idle ∧ y.live.slot = none ∧ y.live.owner = none ∧
        t.retargets = s.retargets.filter (fun n => n != x.node) ∧ t.highSlots = s.highSlots - 1 ∧
        (WavesOk s → (s.neutral.steps.map fun k => k.row).Nodup →
          OwnerCounts s t x 0 1 0 (withdrawn (fun q => q == .deadline x.node) s.divider)))

/-- R23, R164, R166: a MET frame on D gives its reading to a MET source at its source node when its quality is 0 and its direction below
3600, is forwarded to U, and changes nothing else. -/
def Obligations.MetObserved : Prop :=
  ∀ (s : State) (a : Addr) (m : MetBody), Takes .d s →
    exec (.metFrame a m) s =
      .next (forwarded .d (controlFrame s.params.controlType 3 a (metBytes m))
        { s with sources := s.sources.map fun x =>
          if x.kind = .met ∧ x.node = a.src.toNat ∧ m.quality = 0 ∧ m.direction.toNat < 3600 then
            { x with reading := some (min 600 m.speed.toNat, m.direction.toNat), age := 0 }
          else x })

/-! ### Management requests -/

/-- R175, R176, R179 to R183, R53, R74, R151: the eight requests that read are answered with one reply and change nothing else. -/
def Obligations.ReadsAnswerOnly : Prop :=
  ∀ (s : State) (e : Env), Served s →
    let answers := fun (c : Instr) (code : Byte) =>
      ∃ (r : Result) (fields : List Byte), exec c s = .next (answered e code r fields (delivered e s))
    answers (.status e) 1 ∧ (∀ n, answers (.getParam e n) 3) ∧ (∀ a n, answers (.readTurbine e a n) 9) ∧
      (∀ r, answers (.readRow e r) 10) ∧ (∀ p i, answers (.readWave e p i) 11) ∧ answers (.readNeutral e) 12 ∧
      (∀ k, answers (.readPlan e k) 13) ∧ answers (.readCounts e) 14

/-- R179: GET PARAM answers with the number and the value in force, or RANGE for a number outside 1 to 16. -/
def Obligations.GetParamAnswers : Prop :=
  ∀ (s : State) (e : Env) (number : Byte), Served s →
    (∀ v, parameter s.params number.toNat = some v →
      exec (.getParam e number) s =
        .next (answered e 3 .ok (number :: bytes32 (BitVec.ofNat 32 v)) (delivered e s))) ∧
    ((number = 0 ∨ 16 < number.toNat) →
      exec (.getParam e number) s = .next (answered e 3 .range [] (delivered e s))) ∧
    (number ≠ 0 → number.toNat ≤ 16 → ∃ v, parameter s.params number.toNat = some v)

/-- R53, R74, R151, R176, R180, R181, R182, R183: what STATUS, READ TURBINE, READ ROW, READ WAVE, READ NEUTRAL, READ PLAN and READ
COUNTS report, their refusals, and the layout of each reply. The model's own, and no rule's, are these: STATUS counts U's queue before
its own reply is placed (notes/assumptions/14.md); READ NEUTRAL codes its steps' states as R174 codes those of LOW steps, a flag
outside STATUS is one byte, 1 or 0, and the latch byte of a FORMING record is 0 (notes/assumptions/15.md); and in READ WAVE the code of
the wave's state, a step's field without a value, the bit "A present" while compare A is pending, and the step count of a FORMING record
are free values (notes/assumptions/4.md). -/
def Obligations.ReadsReportState : Prop :=
  ∀ (s : State) (e : Env), Served s →
    (∀ row : Byte, 15 < row.toNat → exec (.readRow e row) s = .next (answered e 10 .range [] (delivered e s))) ∧
    (∀ row : Byte, row.toNat ≤ 15 →
      exec (.readRow e row) s =
        .next (answered e 10 .ok ([row, if s.masked row.toNat then 1 else 0, byte (s.members row.toNat).length] ++
          (s.members row.toNat).map byte) (delivered e s))) ∧
    (∀ k : Byte, 23 < k.toNat → exec (.readPlan e k) s = .next (answered e 13 .range [] (delivered e s))) ∧
    (∀ k : Byte, k.toNat ≤ 23 → s.plan? k.toNat = none →
      exec (.readPlan e k) s = .next (answered e 13 .absent [] (delivered e s))) ∧
    (∀ (k : Byte) (p : Plan), s.plan? k.toNat = some p →
      exec (.readPlan e k) s = .next (answered e 13 .ok (k :: planLayout p) (delivered e s))) ∧
    (∀ a n : Byte, (a = 0 ∨ a = 255 ∨ n = 0 ∨ 16 < n.toNat) →
      exec (.readTurbine e a n) s = .next (answered e 9 .range [] (delivered e s))) ∧
    (∀ a n : Byte, a ≠ 0 → a ≠ 255 → n ≠ 0 → n.toNat ≤ 16 → (∀ x ∈ s.turbines, x.node < a.toNat) →
      exec (.readTurbine e a n) s = .next (answered e 9 .absent [] (delivered e s))) ∧
    (∀ a n : Byte, a ≠ 0 → a ≠ 255 → n ≠ 0 → n.toNat ≤ 16 → (∃ x ∈ s.turbines, a.toNat ≤ x.node) →
      let found := (s.turbines.filter fun x => decide (a.toNat ≤ x.node)).take n.toNat
      exec (.readTurbine e a n) s =
        .next (answered e 9 .ok (byte found.length :: found.flatMap turbineLayout) (delivered e s))) ∧
    exec (.status e) s = .next (answered e 1 .ok (statusLayout (delivered e s)) (delivered e s)) ∧
    (∀ p i : Byte, 3 < p.toNat → exec (.readWave e p i) s = .next (answered e 11 .range [] (delivered e s))) ∧
    (∀ p i : Byte, p.toNat ≤ 3 → s.waves.length ≤ p.toNat →
      exec (.readWave e p i) s = .next (answered e 11 .absent [] (delivered e s))) ∧
    (∀ (p i : Byte) (older younger : List Wave) (w : Wave), p.toNat ≤ 3 → s.waves = older ++ w :: younger →
      older.length = p.toNat →
      exec (.readWave e p i) s = .next (answered e 11 .ok (waveLayout w i.toNat) (delivered e s))) ∧
    exec (.readNeutral e) s = .next (answered e 12 .ok (neutralLayout s.neutral) (delivered e s)) ∧
    exec (.readCounts e) s =
      .next (answered e 14 .ok
        ([s.counters.closed, s.counters.done, s.counters.folded, s.counters.dropped, s.counters.veers,
          s.counters.stalls, s.counters.skips, s.countersU.forwarded, s.countersU.dropped, s.countersU.malformed,
          s.countersD.forwarded, s.countersD.dropped, s.countersD.malformed, s.discardedManage,
          s.ownDropped].flatMap bytes32) (delivered e s))

/-- R178, R156, R162: the checks of SET PARAM in their order; an accepted request gives the one parameter its value before the reply is
built, and for the storm edge takes the storm condition from the line level again; a refused one changes nothing. -/
def Obligations.SetParamChecked : Prop :=
  ∀ (s : State) (e : Env) (number : Byte) (value : BitVec 32), Served s →
    let refused := fun r => exec (.setParam e number value) s = .next (answered e 2 r [] (delivered e s))
    let passOnly := number = 2 ∨ number = 3 ∨ number = 15 ∨ number = 16
    (parameterRange number.toNat = none → refused .range) ∧
    ∀ lo hi, parameterRange number.toNat = some (lo, hi) →
      (passOnly → s.mode ≠ .pass → refused .mode) ∧
      ((passOnly → s.mode = .pass) → (value.toNat < lo ∨ hi < value.toNat) → refused .range) ∧
      ((passOnly → s.mode = .pass) → lo ≤ value.toNat → value.toNat ≤ hi →
        ∃ p : Params, parameter p number.toNat = some value.toNat ∧
          (∀ m, m ≠ number.toNat → parameter p m = parameter s.params m) ∧
          exec (.setParam e number value) s =
            .next (answered e 2 .ok (number :: bytes32 value)
              { delivered e s with
                params := p
                storm := if number = 15 then
                    (match p.stormEdge with | .rising => s.stormLine | .falling => !s.stormLine | .both => false)
                  else s.storm }))

/-- R1, R2, R3, R5, R18: LOAD TURBINE: a refused load changes nothing; an accepted one puts the entry in the table with the load values,
in place of any entry at its address, keeps every other entry and every mask, and leaves the member lists in step with the table. -/
def Obligations.LoadTurbineChecked : Prop :=
  ∀ (s : State) (e : Env) (q : TurbineReq), Served s → RowTableOk s →
    (loadTurbineResult s q ≠ .ok →
      exec (.loadTurbine e q) s = .next (answered e 4 (loadTurbineResult s q) [] (delivered e s))) ∧
    (loadTurbineResult s q = .ok → ∃ (ts : List Turbine) (rs : Vector Row 16) (f : Format),
      exec (.loadTurbine e q) s =
        .next (answered e 4 .ok [q.node] { delivered e s with turbines := ts, rows := rs }) ∧
      q.format.toNat = (match f with | .d1 => 1 | .d2 => 2 | .b1 => 3) ∧
      (∀ x, x ∈ ts ↔
        x = ⟨q.node.toNat, ⟨q.row.toNat, q.column.toNat, f, q.limit.toNat, q.rate.toNat⟩,
          ⟨none, false, .standby, 65535, none, .idle, none, none, none, .absent, false, false⟩⟩ ∨
          (x ∈ s.turbines ∧ x.node ≠ q.node.toNat)) ∧
      RowTableOk { s with turbines := ts, rows := rs } ∧
      ∀ r, State.masked { s with rows := rs } r = s.masked r)

/-- R4, R18: DROP TURBINE: the checks in their order; an accepted drop removes the entry with its record and its place in its row's
list, and nothing else. -/
def Obligations.DropTurbineChecked : Prop :=
  ∀ (s : State) (e : Env) (node : Byte), Served s → RowTableOk s →
    let refused := fun r => exec (.dropTurbine e node) s = .next (answered e 5 r [] (delivered e s))
    (s.mode ≠ .pass → refused .mode) ∧
    (s.mode = .pass → (node = 0 ∨ node = 255) → refused .range) ∧
    (s.mode = .pass → node ≠ 0 → node ≠ 255 → (∀ x ∈ s.turbines, x.node ≠ node.toNat) → refused .absent) ∧
    ((∃ x ∈ s.turbines, x.node = node.toNat) → s.mode = .pass → node ≠ 0 → node ≠ 255 → ∃ rs : Vector Row 16,
      exec (.dropTurbine e node) s =
        .next (answered e 5 .ok [node]
          { delivered e s with
            turbines := s.turbines.filter fun x => x.node != node.toNat
            rows := rs }) ∧
      (∀ r, State.members { s with rows := rs } r = (s.members r).filter fun n => n != node.toNat) ∧
      ∀ r, State.masked { s with rows := rs } r = s.masked r)

/-- R21, R22, R28, R31: LOAD SOURCES: a refused load changes nothing; an accepted one replaces the whole list with fresh readings
absent, and unprimes the unit with the sector absent and the mark STALE. That a list cut short by its frame is RANGE behind the mode
check is the model's reading (notes/assumptions/12.md). -/
def Obligations.LoadSourcesChecked : Prop :=
  ∀ (s : State) (e : Env) (number : Byte) (entries : List SourceReq), Served s →
    (loadSourcesResult s number entries ≠ .ok →
      exec (.loadSources e number entries) s =
        .next (answered e 6 (loadSourcesResult s number entries) [] (delivered e s))) ∧
    (loadSourcesResult s number entries = .ok →
      exec (.loadSources e number entries) s =
        .next (answered e 6 .ok [number]
          { delivered e s with
            sources := (entries.take number.toNat).map fun x =>
              ⟨if x.kind = 1 then .met else .nacelle, x.node.toNat, none, 65535, false⟩
            filter := none
            mark := .stale
            sector := none }))

/-- R50, R51, R52: LOAD PLAN and DROP PLAN: a refused request changes nothing; an accepted load stores the requested plan whole in its
sector's slot, an accepted drop makes the slot absent, and the other slots stand. -/
def Obligations.PlanSlotsChecked : Prop :=
  ∀ (s : State) (e : Env), Served s →
    (∀ q : PlanReq, loadPlanResult s q ≠ .ok →
      exec (.loadPlan e q) s = .next (answered e 7 (loadPlanResult s q) [] (delivered e s))) ∧
    (∀ q : PlanReq, loadPlanResult s q = .ok → ∃ p : Plan,
      exec (.loadPlan e q) s =
        .next (answered e 7 .ok [q.sector]
          { delivered e s with plans := s.plans.setIfInBounds q.sector.toNat (some p) }) ∧
      q.sector :: planLayout p = (Request.loadPlan { q with entries := q.entries.take q.count.toNat }).fields) ∧
    ∀ k : Byte,
      (s.mode ≠ .pass → exec (.dropPlan e k) s = .next (answered e 8 .mode [] (delivered e s))) ∧
      (s.mode = .pass → 23 < k.toNat → exec (.dropPlan e k) s = .next (answered e 8 .range [] (delivered e s))) ∧
      (s.mode = .pass → k.toNat ≤ 23 → s.plan? k.toNat = none →
        exec (.dropPlan e k) s = .next (answered e 8 .absent [] (delivered e s))) ∧
      (s.mode = .pass → (∃ p, s.plan? k.toNat = some p) →
        exec (.dropPlan e k) s =
          .next (answered e 8 .ok [k] { delivered e s with plans := s.plans.setIfInBounds k.toNat none }))

/-- R144, R145, R146, R158: MODE STEER: the checks in their order; an accepted request is answered, makes the mode STEER with cause
REQUEST, starts the lapse timer from 0 and builds the MODE notice behind its reply; a refused one changes nothing. -/
def Obligations.ModeSteerChecked : Prop :=
  ∀ (s : State) (e : Env), Served s →
    let refused := fun r => exec (.modeSteer e) s = .next (answered e 15 r [] (delivered e s))
    let empty := s.turbines = [] ∨ ∀ k, s.plan? k = none
    (s.mode ≠ .pass → refused .mode) ∧
    (s.mode = .pass → s.linkD = false → refused .mode) ∧
    (s.mode = .pass → s.linkD = true → empty → refused .empty) ∧
    (s.mode = .pass → s.linkD = true → ¬empty → s.storm = true → refused .storm) ∧
    (s.mode = .pass → s.linkD = true → ¬empty → s.storm = false →
      exec (.modeSteer e) s =
        .next (noticed (.mode .steer .request)
          { answered e 15 .ok [1] (delivered e s) with
            mode := .steer, cause := .request, lapse := .running 0, lapseDue := false }))

/-- R72, R79, R98, R101, R126, R144, R147, R148: STOP KEEP outside STEER is refused with MODE. In STEER it discards the FORMING wave
and stops the quiet timer; WAITING and HOLDING steps become CANCELLED; RELEASING steps lose their queued requests, whose turbines
become IDLE and are counted cancelled, and become MOVING or CANCELLED; MOVING steps and their turbines carry on; the pending hold
times of the cancelled steps leave the divider's list or are marked for discard; waves then ended complete, oldest first, before the
MODE notice. The mode is DRAIN with cause STOP while a wave or an active neutral context remains;
when none does, DRAIN has ended in PASS in the same event. -/
def Obligations.StopKeepDrains : Prop :=
  ∀ (s : State) (e : Env), Served s →
    (s.mode ≠ .steer → exec (.stopKeep e) s = .next (answered e 15 .mode [] (delivered e s))) ∧
    (s.mode = .steer → ArbiterOk s → ∃ t : State, exec (.stopKeep e) s = .next t ∧
      let replied := answered e 15 .ok [2] (delivered e s)
      let raised := (drainedOut s).map waveDoneOf
      t.waves = (drainedWaves s).filter (fun w => w.running) ∧ t.low = [] ∧ t.quiet = none ∧
      t.neutral.active = s.neutral.active ∧
      (∀ x ∈ s.turbines, ∃ y ∈ t.turbines, Drained x y) ∧
      t.counters = { s.counters with done := s.counters.done + BitVec.ofNat 32 (drainedOut s).length } ∧
      ((∃ w ∈ drainedWaves s, w.running = true) ∨ s.neutral.active = true →
        t.mode = .drain ∧ t.cause = .stop ∧ t.lapse = (delivered e s).lapse ∧
          t.queueU = (noticedAll (raised ++ [.mode .drain .stop]) replied).queueU) ∧
      ((∀ w ∈ drainedWaves s, w.running = false) → s.neutral.active = false →
        t.mode = .pass ∧ t.cause = .complete ∧ t.lapse = .stopped ∧
          t.queueU = (noticedAll (raised ++ [.mode .drain .stop, .mode .pass .complete]) replied).queueU) ∧
      DividerLeaves s t (pendingHold s) ∧ (ArbiterServed s → t.divider = withdrawn (pendingHold s) s.divider) ∧
      ArbiterServed t ∧ Steady (delivered e s) t)

/-- R102, R144, R149, R150: STOP NEUTRAL outside STEER and DRAIN is refused with MODE; otherwise it is answered and enters RETURN with
cause STOP: every wave completes, and the neutral context gains a step at every row and drives every turbine that is not at rest to 0. -/
def Obligations.StopNeutralReturns : Prop :=
  ∀ (s : State) (e : Env), Served s →
    (s.mode ≠ .steer → s.mode ≠ .drain →
      exec (.stopNeutral e) s = .next (answered e 15 .mode [] (delivered e s))) ∧
    (s.mode = .steer ∨ s.mode = .drain → ArbiterOk s → ∃ t : State, exec (.stopNeutral e) s = .next t ∧
      EntersReturn (answered e 15 .ok [3] (delivered e s)) t .stop .stop)

/-- R19, R79, R81, R87, R99, R100, R125, R137, R151 to R154: NEUTRAL outside STEER is refused with MODE; with an empty row set it is
answered and changes nothing; otherwise the masks of the named rows are set, the mode stays STEER, and the neutral context gains a step
at every named row with cause REQUEST, which drives the row's turbines that are not at rest to 0. The LOW steps there that wait or hold
are skipped and counted, and one in RELEASING or MOVING becomes DONE with its turbines counted superseded. The divider loses the pending
hold times of the steps skipped and the deadlines of the turbines retargeted, and gains only hold times that are awaited and deadlines;
said where no step so ended triggers one at a named row. A single step so skipped, where nothing else at a named row is live, builds its
STEP_SKIPPED notice with reason NEUTRAL behind the reply, loses a pending hold-time request, and starts a WAITING successor holding,
whose hold-time request it places; said where the mark is STALE, so that no release follows, and of the divider where the arbiter had
nothing left to do, so that only neutral turbines are granted behind it. -/
def Obligations.NeutralSetsMasks : Prop :=
  ∀ (s : State) (e : Env) (rows : BitVec 16), Served s →
    (s.mode ≠ .steer → exec (.neutral e rows) s = .next (answered e 16 .mode [] (delivered e s))) ∧
    (s.mode = .steer → rows = 0 → exec (.neutral e rows) s = .next (answered e 16 .ok [0, 0] (delivered e s))) ∧
    (s.mode = .steer → rows ≠ 0 → ArbiterOk s →
      ∃ (t : State) (rest : List QueuedFrame), exec (.neutral e rows) s = .next t ∧
      t.queueU = (answered e 16 .ok (bytes16 rows) (delivered e s)).queueU ++ rest ∧
      (∀ r, r ≤ 15 → t.masked r = (s.masked r || rows.getLsbD r) ∧ t.members r = s.members r) ∧ t.mode = .steer ∧
      Gains (delivered e s) t (fun r => rows.getLsbD r) .request ∧
      (∀ w ∈ s.waves, ∀ st ∈ w.steps, rows.getLsbD st.row = true → ∀ w' ∈ t.waves, w'.num = w.num →
        ∃ st' ∈ w'.steps, st'.row = st.row ∧ (st.state.unreleased → st'.state = .skipped) ∧
          (st.state.active → st'.state = .done ∧ st'.set = some st.hold ∧
            st'.superseded = st.superseded + owned s (.low w.num st.row)) ∧
          (st.state.terminal = true → st' = st)) ∧
      (NoneAtP s → t.counters.skips = s.counters.skips + BitVec.ofNat 32
        (s.waves.map fun w => w.steps.countP fun st =>
          rows.getLsbD st.row && (st.state == .waiting || st.state == .holding)).sum) ∧
      (NoneAtP s → WaitingUnforced s → WavesOk s → (s.divider.stage = none → s.divider.list = []) →
        (∀ w ∈ s.waves, ∀ st ∈ w.steps, rows.getLsbD st.row = true → ∀ next, w.successor st.row = some next →
          next.state = .waiting → rows.getLsbD next.row = false) →
        DividerAdds s t (neutralWithdraws s fun r => rows.getLsbD r)) ∧
      (NoneAtP s → WavesOk s → s.mark = .stale → ∀ w ∈ s.waves, ∀ st ∈ w.steps, rows.getLsbD st.row = true →
        st.state.unreleased → w.running = true →
        (∀ w2 ∈ s.waves, ∀ st2 ∈ w2.steps, rows.getLsbD st2.row = true → st2.state.terminal = false →
          w2.num = w.num ∧ st2.row = st.row) →
        (∃ o ∈ w.steps, o.row ≠ st.row ∧ o.state.terminal = false) → NoneFinished s →
        t.queueU = (noticed (.stepSkipped w.num st.row .neutral)
          (answered e 16 .ok (bytes16 rows) (delivered e s))).queueU ∧
        (∀ next, w.successor st.row = some next → next.state = .waiting →
          ∃ w' ∈ t.waves, w'.num = w.num ∧ ∃ n ∈ w'.steps, n.row = next.row ∧ n.state = .holding ∧ n.hold = 0 ∧
            n.cmpA = .pending) ∧
        (∀ p, w.sector.bind s.plan? = some p → ArbiterServed s → ∃ placed : List DivEntry,
          t.divider = placed.foldl Divider.place (afterTrigger s w p st.row
            (withdrawn (fun q => st.cmpA == .pending && q == .hold w.num st.row) s.divider)) ∧
          ∀ d ∈ placed, ∃ n, d.requester = .deadline n) ∧
        ∀ w' ∈ t.waves, w'.num = w.num → ∀ st' ∈ w'.steps, st'.row = st.row →
          st'.cmpA = if st.cmpA = .pending then .absent else st.cmpA) ∧
      t.quiet = s.quiet ∧ Steady { delivered e s with rows := t.rows } t)

/-- R19, R20, R77, R79, R81, R87, R97, R115, R116, R181: MASK with "clear" clears the flags of the named rows and nothing else. With
"set" it sets them, and each step WAITING or HOLDING at a row that it newly masked becomes SKIPPED and is counted; steps RELEASING or
MOVING carry on with their counts and their turbines, and terminal steps stand. A single step so skipped builds its STEP_SKIPPED notice
with reason MASK behind the reply, loses a pending hold-time request, and starts a WAITING successor holding, whose hold-time request
it places; said where the mark is STALE, so that no release follows. The reply carries the masks as they stand after the request. -/
def Obligations.MaskSetAndClear : Prop :=
  ∀ (s : State) (e : Env) (rows : BitVec 16), Served s →
    (∃ (rs : Vector Row 16) (masks : BitVec 16),
      exec (.maskClear e rows) s = .next (answered e 17 .ok (bytes16 masks) { delivered e s with rows := rs }) ∧
      ∀ r, r ≤ 15 → State.masked { s with rows := rs } r = (s.masked r && !rows.getLsbD r) ∧
        masks.getLsbD r = (s.masked r && !rows.getLsbD r) ∧ State.members { s with rows := rs } r = s.members r) ∧
    (WavesOk s → ∃ (t : State) (masks : BitVec 16) (rest : List QueuedFrame), exec (.maskSet e rows) s = .next t ∧
      t.queueU = (answered e 17 .ok (bytes16 masks) (delivered e s)).queueU ++ rest ∧
      (∀ r, r ≤ 15 → t.masked r = (s.masked r || rows.getLsbD r) ∧ masks.getLsbD r = (s.masked r || rows.getLsbD r) ∧
        t.members r = s.members r ∧
        (rows.getLsbD r = true → s.masked r = false →
          ∀ w ∈ t.waves, ∀ st ∈ w.steps, st.row = r → ¬st.state.unreleased)) ∧
      let skips := fun st : WaveStep =>
        rows.getLsbD st.row && !s.masked st.row && (st.state == .waiting || st.state == .holding)
      (∀ w ∈ s.waves, ∀ st ∈ w.steps, ∀ w' ∈ t.waves, w'.num = w.num → ∃ st' ∈ w'.steps, st'.row = st.row ∧
        (skips st = true → st'.state = .skipped) ∧ (st.state.terminal = true → st' = st)) ∧
      (∀ w ∈ s.waves, ∀ st ∈ w.steps, w.running = true → st.state.active →
        (∃ w' ∈ t.waves, w'.num = w.num ∧ ∃ st' ∈ w'.steps, st' = { st with state := st'.state, rel := st'.rel } ∧
          (st'.state = st.state ∨ (st.state = .releasing ∧ st'.state = .moving)) ∧ (st.rel ≠ none → st'.rel = st.rel)) ∧
        (ArbiterOk s → ∀ x ∈ s.turbines, x.live.owner = some (.low w.num st.row) →
          ∃ y ∈ t.turbines, y.node = x.node ∧ y.live.owner = x.live.owner ∧ y.live.target = x.live.target ∧
            (x.live.move = .moving → y = x))) ∧
      (NoneAtP s → t.counters.skips =
        s.counters.skips + BitVec.ofNat 32 (s.waves.map fun w => w.steps.countP skips).sum) ∧
      (NoneAtP s → s.mark = .stale → ∀ w ∈ s.waves, ∀ st ∈ w.steps, skips st = true →
        (∀ w2 ∈ s.waves, ∀ st2 ∈ w2.steps, skips st2 = true → w2.num = w.num ∧ st2.row = st.row) →
        (∃ o ∈ w.steps, o.row ≠ st.row ∧ o.state.terminal = false) → NoneFinished s → ModeStands s → w.running = true →
        t.queueU = (noticed (.stepSkipped w.num st.row .mask)
          (answered e 17 .ok (bytes16 masks) (delivered e s))).queueU ∧
        (∀ next, w.successor st.row = some next → next.state = .waiting →
          ∃ w' ∈ t.waves, w'.num = w.num ∧ ∃ n ∈ w'.steps, n.row = next.row ∧ n.state = .holding ∧ n.hold = 0 ∧
            n.cmpA = .pending) ∧
        (∀ k p, w.sector = some k → s.plan? k = some p → ArbiterServed s →
          t.divider = afterTrigger s w p st.row
            (withdrawn (fun q => st.cmpA == .pending && q == .hold w.num st.row) s.divider)) ∧
        ∀ w' ∈ t.waves, w'.num = w.num → ∀ st' ∈ w'.steps, st'.row = st.row →
          st'.cmpA = if st.cmpA = .pending then .absent else st.cmpA) ∧
      t.quiet = s.quiet ∧ Steady { delivered e s with rows := t.rows } t)

/-- R161, R6, R19, R28, R73, R118, R142, R151, R156, R145: RESTART in every mode: the reply first, then the clearing of every block that
the rule lists, the mode PASS with cause RESTART, and the MODE notice; all else stands. -/
def Obligations.RestartClears : Prop :=
  ∀ (s : State) (e : Env), Served s →
    let s1 := answered e 18 .ok [] (delivered e s)
    exec (.restart e) s =
      .next (noticed (.mode .pass .restart)
        { s1 with
          turbines := s.turbines.map fun x =>
            { x with live := { x.live with
              move := .idle, slot := none, owner := none, deadline := .absent, stalled := false, fault := false } }
          rows := s.rows.map fun x => { x with mask := false }
          filter := none, mark := .stale, sector := none
          sources := s.sources.map fun x => { x with fresh := false }
          waves := [], quiet := none, quietDue := false
          neutral := { active := false, cause := none, steps := [] }
          divider := { list := [], stage := s.divider.stage.map fun v => { v with discard := true } }
          high := [], low := [], retargets := [], lowSlots := 0, highSlots := 0, motion := false
          mode := .pass, cause := .restart, lapse := .stopped, lapseDue := false
          storm := match s.params.stormEdge with
            | .rising => s.stormLine
            | .falling => !s.stormLine
            | .both => false })

/-- R144, R175, R181: a request with a code outside the eighteen is answered UNKNOWN with its code; one of the eighteen whose body ends
before its last field of fixed size is answered RANGE, and so, in every mode, are a MODE request with a mode code other than 1 to 3 and
a MASK request with an operation other than 0 or 1; none of these changes anything else. -/
def Obligations.UnknownAndShortRequests : Prop :=
  ∀ (s : State) (e : Env) (code : Byte) (fields : List Byte), Served s →
    ((code = 0 ∨ 18 < code.toNat) →
      exec (.unknownRequest e code fields) s = .next (answered e code .unknown [] (delivered e s))) ∧
    (code ≠ 0 → code.toNat ≤ 18 → fields.length < fixedFields code.toNat →
      exec (.unknownRequest e code fields) s = .next (answered e code .range [] (delivered e s))) ∧
    (∀ (mode : Byte) (rest : List Byte), mode = 0 ∨ 3 < mode.toNat →
      exec (.unknownRequest e 15 (mode :: rest)) s = .next (answered e 15 .range [] (delivered e s))) ∧
    ∀ (r1 r0 operation : Byte) (rest : List Byte), 1 < operation.toNat →
      exec (.unknownRequest e 17 (r1 :: r0 :: operation :: rest)) s = .next (answered e 17 .range [] (delivered e s))

/-! ### Power, counts and estimates -/

/-- R6, R38, R39, R73, R118, R142, R143, R151, R156, R171, R173, R177, R183: at the release of RSTN every block takes its power-on
values, with the strap, line and link levels found; the station address is the part's own. The holding of RSTN closes the bypass
relay; what MOTION shows meanwhile and that nothing else changes is the model's choice (notes/assumptions/7.md). That a release is
taken from every state is the model's choice, too (notes/assumptions/24.md). -/
def Obligations.PowerOnAndHold : Prop :=
  (∀ (s : State) (straps : Byte) (storm yhold linkU linkD : Bool) (t : State),
    exec (.powerOn straps storm yhold linkU linkD) s = .next t ↔
      t = { State.reset with
        nodeAddr := straps, station := s.station, stormLine := storm, storm := storm, yholdLine := yhold
        linkU := linkU, linkD := linkD, draws := s.draws, pending := s.pending }) ∧
    State.reset.mode = .pass ∧ State.reset.cause = .powerOn ∧ State.reset.lapse = .stopped ∧
    State.reset.relayClosed = false ∧ State.reset.motion = false ∧ State.reset.supervisor = 0xFFFFFFFFFFFF ∧
    State.reset.turbines = [] ∧ (∀ r, State.reset.members r = [] ∧ State.reset.masked r = false) ∧
    State.reset.sources = [] ∧ State.reset.filter = none ∧ State.reset.mark = .stale ∧ State.reset.sector = none ∧
    (∀ k, State.reset.plan? k = none) ∧ State.reset.waves = [] ∧ State.reset.waveCounter = 0 ∧
    State.reset.quiet = none ∧ State.reset.neutral = ⟨false, none, []⟩ ∧ State.reset.divider = ⟨[], none⟩ ∧
    State.reset.timeBase = 0 ∧ NothingQueued State.reset ∧ State.reset.slots = 0 ∧
    State.reset.queueU = [] ∧ State.reset.queueD = [] ∧ State.reset.counters = ⟨0, 0, 0, 0, 0, 0, 0⟩ ∧
    State.reset.countersU = ⟨0, 0, 0⟩ ∧ State.reset.countersD = ⟨0, 0, 0⟩ ∧ State.reset.discardedManage = 0 ∧
    State.reset.ownDropped = 0 ∧
    ((List.range 17).map (parameter State.reset.params)) =
      [none, some 39969, some 4, some 4, some 5, some 20, some 0, some 50, some 3, some 4, some 30, some 50, some 15,
        some 40, some 100, some 0, some 0] ∧
    ∀ s : State, s.relayClosed = false → ∃ level : Bool,
      exec .rstnHold s = .next { s with relayClosed := true, motion := level, draws := s.draws + 1 }

/-- R9, R25, R26, R61, R76, R113, R158: a count, with nothing of the last count still to be taken, advances the time base, the ages, the
hold counters of the steps that are HOLDING, RELEASING or MOVING and the running timers, and changes nothing else but what falls due,
the tests at the compares that the count reaches among it. What falls due is taken by the commands of its rows
(notes/assumptions/9.md). -/
def Obligations.CountAdvances : Prop :=
  ∀ s : State, s.relayClosed = false → s.estimateDue = false → s.quietDue = false → s.lapseDue = false →
    (∀ x ∈ s.turbines, x.live.deadlineReached s.timeBase = false) →
    (∀ w ∈ s.waves, ∀ st ∈ w.steps, st.owesTest = false ∧ st.owesDeadline = false) →
    let reaches := fun (st : WaveStep) (c : Option Nat) =>
      decide (st.state = .holding ∧ st.hold < 65535 ∧ c = some (st.hold + 1))
    ∃ t : State, exec .count s = .next t ∧
      t = { s with
        timeBase := s.timeBase + 1
        turbines := s.turbines.map fun x =>
          { x with live := { x.live with age := min 65535 (x.live.age + 1) } }
        sources := s.sources.map fun x => { x with age := min 65535 (x.age + 1) }
        waves := s.waves.map fun w =>
          { w with steps := w.steps.map fun st =>
              if st.state = .holding ∨ st.state = .releasing ∨ st.state = .moving then
                { st with
                  hold := min 65535 (st.hold + 1)
                  owesTest := reaches st (match st.cmpA with | .value a => some a | .absent | .pending => none)
                  owesDeadline := reaches st st.cmpP }
              else st }
        quiet := s.quiet.map fun v => v + 1
        quietDue := t.quietDue
        lapse := match s.lapse with
          | .running v => .running (min 65535 (v + 1))
          | x => x
        lapseDue := t.lapseDue
        estimateDue := t.estimateDue } ∧
      (t.estimateDue = true ↔ (s.timeBase + 1).toNat % 10 = 0) ∧
      (t.quietDue = true ↔ ∃ v, s.quiet = some v ∧ s.params.quietTime ≤ v + 1) ∧
      (t.lapseDue = true ↔ ∃ v, s.lapse = .running v ∧ 0 < s.params.lapseTime ∧
        s.params.lapseTime ≤ min 65535 (v + 1))

/-- R25, R26, R27, R28, R31, R32: an estimate step that finds no source fresh makes the mark STALE and changes no other value of the
estimate; one that finds a source fresh primes an unprimed unit with the truncated mean of the fresh speeds and the direction of the
first fresh source, and takes the first sector; one that is not due changes nothing. That the command changes nothing where its
condition does not hold is the model's choice (notes/assumptions/10.md). -/
def Obligations.EstimateHoldsOrPrimes : Prop :=
  (∀ s : State, s.estimateDue = false → exec .estimateStep s = .next s) ∧
  (∀ s : State, s.relayClosed = false → s.estimateDue = true → freshReadingsAt s = [] →
    ∃ t : State, exec .estimateStep s = .next t ∧ t.quiet = s.quiet ∧
      Steady { s with estimateDue := false, sources := judgedSources s, mark := .stale } t) ∧
  ∀ (s : State) (speed direction : Nat) (rest : List (Nat × Nat)), s.relayClosed = false → s.estimateDue = true →
    freshReadingsAt s = (speed, direction) :: rest → s.filter = none →
    ∃ t : State, exec .estimateStep s = .next t ∧ t.quiet = s.quiet ∧
      Steady { s with
        estimateDue := false, sources := judgedSources s, mark := .fresh
        filter := some ⟨((((freshReadingsAt s).map fun q => q.1).sum / (freshReadingsAt s).length : Nat) : Int) * 256,
          (direction : Int) * 256⟩
        sector := some (direction / 150) } t

/-- R29, R30, R33, R34, R98: an estimate step of a primed unit that finds a source fresh filters the speed and the direction, makes
the mark FRESH, keeps the sector while the filtered direction lies in its widened band and otherwise takes the new one. A change taken
in STEER or DRAIN is a veer event: it is counted, the unreleased steps of every RUNNING wave are cancelled and queued requests
removed, pending hold times leave the divider's list or are marked for discard, ended waves complete before the VEER notice, and
turbines that hold a slot carry on. -/
def Obligations.EstimateFilters : Prop :=
  ∀ (s : State) (f : Filter) (k speed direction : Nat) (rest : List (Nat × Nat)), s.relayClosed = false →
    s.estimateDue = true → freshReadingsAt s = (speed, direction) :: rest → s.filter = some f → s.sector = some k →
    EstimateRanges s → s.params.hysteresis ≤ 75 →
    let raw := ((freshReadingsAt s).map fun q => q.1).sum / (freshReadingsAt s).length
    ∃ (t : State) (d turned : Int) (f' : Filter), exec .estimateStep s = .next t ∧
      (-1800 ≤ d ∧ d ≤ 1799 ∧ (d - ((direction : Int) - f.direction / 256)) % 3600 = 0) ∧
      turned = f.direction + d * 256 / 2 ^ s.params.directionShift ∧
      f' = ⟨f.speed + ((raw : Int) * 256 - f.speed) / 2 ^ s.params.speedShift,
        if 921599 < turned then turned - 921600 else if turned < 0 then turned + 921600 else turned⟩ ∧
      t.quiet = s.quiet ∧
      (InWidenedBand (f'.direction / 256).toNat k s.params.hysteresis →
        Steady { s with
          estimateDue := false, sources := judgedSources s, mark := .fresh, filter := some f' } t) ∧
      (¬InWidenedBand (f'.direction / 256).toNat k s.params.hysteresis →
        Steady { s with
          estimateDue := false, sources := judgedSources s, mark := .fresh, filter := some f'
          sector := some ((f'.direction / 256).toNat / 150)
          counters := if s.mode = .steer ∨ s.mode = .drain then
              { s.counters with veers := s.counters.veers + 1 }
            else s.counters } t ∧
        (s.mode = .steer ∨ s.mode = .drain → ArbiterOk s →
          (t.waves = (drainedWaves s).map fun w =>
            match w.running, w.dRef, w.uRef with
            | true, some dr, some ur =>
              { w with
                latchW := w.latchW || decide (s.params.wThreshold < (wrapDir ((t.df : Int) - dr)).natAbs)
                latchG := w.latchG || decide (s.params.gThreshold < ((t.uf : Int) - ur).natAbs) }
            | _, _, _ => w) ∧
          t.low = [] ∧ (∀ x ∈ s.turbines, ∃ y ∈ t.turbines, Drained x y) ∧
          t.counters.done = s.counters.done + BitVec.ofNat 32 (drainedOut s).length ∧
          DividerLeaves s t (pendingHold s) ∧ (ArbiterServed s → t.divider = withdrawn (pendingHold s) s.divider) ∧
          (s.mode = .steer → t.mode = .steer ∧
            t.queueU = (noticedAll ((drainedOut s).map waveDoneOf ++
              [.veer k ((f'.direction / 256).toNat / 150) (drainedCount s)]) s).queueU)))

/-- R35, R36, R85: at an estimate step that finds a source fresh and changes no sector, the latches of every RUNNING wave are set by the
differences of the new estimate from the wave's references, a set latch stays set, and a FORMING wave is left alone. Where no step can
release under the FRESH mark with the latches so set, none stands at P and nothing is queued, nothing else changes; and where the only
HOLDING step can, the estimate step does what STEP_RELEASE does on that state. A step that has not taken the count that brought it to A
is not tested (the model's choice, notes/assumptions/9.md). -/
def Obligations.LatchesEvaluated : Prop :=
  ∀ s : State, s.relayClosed = false → s.estimateDue = true → freshReadingsAt s ≠ [] → s.filter ≠ none →
    s.sector ≠ none →
    ∃ t : State, exec .estimateStep s = .next t ∧
      (t.sector = s.sector → t.counters.veers = s.counters.veers →
        let latched := { s with
          estimateDue := false, sources := judgedSources s, mark := .fresh, filter := t.filter
          waves := s.waves.map fun w =>
            match w.running, w.dRef, w.uRef with
            | true, some d, some u =>
              { w with
                latchW := w.latchW || decide (s.params.wThreshold < (wrapDir ((t.df : Int) - d)).natAbs)
                latchG := w.latchG || decide (s.params.gThreshold < ((t.uf : Int) - u).natAbs) }
            | _, _, _ => w }
        ((∀ num r, latched.canRelease num r = true → ∃ st, s.step? num r = some st ∧ st.owesTest = true) →
          NoneAtP s → NothingQueued s → ModeStands s → t = latched) ∧
        ∀ (w : Wave) (st : WaveStep), WavesOk s → w ∈ s.waves → st ∈ w.steps → st.owesTest = false →
          latched.canRelease w.num st.row = true →
          (∀ w' ∈ s.waves, ∀ st' ∈ w'.steps, st'.state = .holding → w'.num = w.num ∧ st'.row = st.row) →
          (∀ st' ∈ w.steps, st'.forced = true → st'.row = st.row) →
          exec .estimateStep s = exec (.stepRelease w.num st.row) latched ∧
            ∀ w' ∈ t.waves, w'.num = w.num → ∀ st' ∈ w'.steps, st'.row = st.row → ¬st'.state.unreleased)

/-! ### What falls due, lines and links -/

/-- R149, R150, R157, R158: a lapse expiry that is due marks the timer EXPIRED with its count; in PASS and RETURN it does nothing
else, and in STEER and DRAIN it enters RETURN with cause LAPSE: every wave completes, and the neutral context gains a step at every
row and drives every turbine that is not at rest to 0. One that is not due changes nothing. That the command changes nothing where its
condition does not hold is the model's choice (notes/assumptions/10.md). -/
def Obligations.LapseExpiryReturns : Prop :=
  (∀ s : State, s.lapseDue = false → exec .lapseExpiry s = .next s) ∧
  ∀ (s : State) (v : Nat), s.relayClosed = false → s.lapseDue = true → s.lapse = .running v →
    ((s.mode = .pass ∨ s.mode = .returning) →
      exec .lapseExpiry s = .next { s with lapse := .expired v, lapseDue := false }) ∧
    ((s.mode = .steer ∨ s.mode = .drain) → ArbiterOk s → ∃ t : State, exec .lapseExpiry s = .next t ∧
      EntersReturn { s with lapse := .expired v, lapseDue := false } t .lapse .lapse)

/-- R80, R81, R94, R96, R113, R115, R135, R155: a move deadline that is not reached changes nothing; the expiry of one that is reached
frees the slot, makes the record IDLE, sets STALLED, counts one stall and builds a TURBINE_STALLED notice, and the owner counts the
turbine stalled and, when it is complete, ends and starts a WAITING successor that it has not triggered; said where no step is HOLDING
and no request is queued. That the command changes nothing where its condition does not hold is the model's choice
(notes/assumptions/10.md). -/
def Obligations.DeadlineExpiryStalls : Prop :=
  (∀ (s : State) (node : Nat), (∀ x ∈ s.turbines, x.node = node → x.live.deadlineReached s.timeBase = false) →
    exec (.deadlineExpiry node) s = .next s) ∧
  ∀ (s : State) (x : Turbine) (c : SlotClass) (d : Nat) (arrived : BitVec 32), s.relayClosed = false →
    (s.turbines.map fun y => y.node).Nodup → x ∈ s.turbines → x.live.move = .moving → x.live.slot = some c →
    x.live.deadline = .value (arrived + BitVec.ofNat 32 d) d → max 1 d ≤ (s.timeBase - arrived).toNat →
    NothingQueued s → NoHolding s → WaitingUnforced s →
    ∃ (t : State) (y : Turbine), exec (.deadlineExpiry x.node) s = .next t ∧ y ∈ t.turbines ∧ y.node = x.node ∧
      y.live.move = .idle ∧ y.live.owner = none ∧ y.live.slot = none ∧ y.live.deadline = .absent ∧
      y.live.stalled = true ∧ y.live.target = x.live.target ∧ y.live.commanded = x.live.commanded ∧
      t.lowSlots = s.lowSlots - (if c = .low then 1 else 0) ∧
      t.highSlots = s.highSlots - (if c = .high then 1 else 0) ∧
      t.motion = decide (0 < t.lowSlots + t.highSlots) ∧
      t.counters.stalls = s.counters.stalls + 1 ∧
      (WavesOk s → (s.neutral.steps.map fun k => k.row).Nodup →
        OwnerCounts s t x 0 0 1 (withdrawn (fun q => q == .deadline x.node) s.divider)) ∧
      (t.waves.length = s.waves.length → t.mode = s.mode →
        t.queueU = (noticed (.turbineStalled x.node x.config.row x.live.owner x.live.target x.live.applied x.live.moving)
          s).queueU) ∧
      (∀ z ∈ s.turbines, z.node ≠ x.node → z ∈ t.turbines) ∧ t.quiet = s.quiet ∧ Steady s t

/-- R149, R150, R156, R157: a change of the STORM line sets the line and the condition as the storm edge parameter reads it; a storm
event in STEER or DRAIN enters RETURN with cause STORM: every wave completes, and the neutral context gains a step at every row and
drives every turbine that is not at rest to 0. Everything else changes nothing more. A level the line already has changes nothing.
That the command changes nothing where its condition does not hold is the model's choice (notes/assumptions/10.md). -/
def Obligations.StormLineRead : Prop :=
  ∀ s : State, s.relayClosed = false →
    exec (.stormLineChange s.stormLine) s = .next s ∧
    ∀ level : Bool, level ≠ s.stormLine →
      let condition := match s.params.stormEdge with
        | .rising => level
        | .falling => !level
        | .both => false
      let event := s.params.stormEdge = .both ∨ (condition = true ∧ s.storm = false)
      let noted := { s with stormLine := level, storm := condition }
      ((s.mode = .pass ∨ s.mode = .returning ∨ ¬event) → exec (.stormLineChange level) s = .next noted) ∧
      ((s.mode = .steer ∨ s.mode = .drain) → event → ArbiterOk s → ∃ t : State,
        exec (.stormLineChange level) s = .next t ∧ EntersReturn noted t .storm .storm)

/-- R127, R129, R132, R138, R168: the yaw-hold line and the transmit completions: a head frame leaves its queue; the line becoming inactive
and the freeing of an own place on D serve the retarget list, judge the grant condition again, and where it fails leave every request
waiting. That the command changes nothing
where its condition does not hold is the model's choice (notes/assumptions/10.md). -/
def Obligations.YawHoldAndTransmit : Prop :=
  ∀ s : State, s.relayClosed = false →
    exec (.yawHoldChange s.yholdLine) s = .next s ∧
    (∀ level : Bool, level ≠ s.yholdLine →
      let held := { s with yholdLine := level }
      ((held.holdActive = true ∨ ArbiterServed held) → exec (.yawHoldChange level) s = .next held) ∧
      (held.holdActive = false → s.retargets = [] → held.grantable ≠ none →
        exec (.yawHoldChange level) s = exec .grant held) ∧
      (held.holdActive = false → s.retargets ≠ [] → held.freePlaces ≠ 0 →
        exec (.yawHoldChange level) s = exec .retargetFrame held)) ∧
    (∀ p : Port, (match p with | .u => s.linkU = false ∨ s.queueU = [] | .d => s.linkD = false ∨ s.queueD = []) →
      exec (.transmitCompletion p) s = .next s) ∧
    (∀ f rest, s.linkU = true → s.queueU = f :: rest →
      exec (.transmitCompletion .u) s = .next { s with queueU := rest }) ∧
    ∀ f rest, s.linkD = true → s.queueD = f :: rest →
      let sent := { s with queueD := rest }
      ((f.own = false ∨ ArbiterServed sent) → exec (.transmitCompletion .d) s = .next sent) ∧
      (f.own = true → s.retargets = [] → sent.grantable ≠ none →
        exec (.transmitCompletion .d) s = exec .grant sent) ∧
      (f.own = true → s.retargets ≠ [] → sent.freePlaces ≠ 0 →
        exec (.transmitCompletion .d) s = exec .retargetFrame sent)

/-- R159, R160, R103, R118, R142, R151, R168: the link events: the loss of the D link clears the waves, the neutral context, the
lists, the slots, the divider and D's queue, and leaves PASS; every change of a link builds a LINK notice; a loss of a link that is
down and a return of one that is up change nothing. That the command changes nothing where its condition does not hold is the model's
choice (notes/assumptions/10.md). -/
def Obligations.LinkEvents : Prop :=
  ∀ s : State, s.relayClosed = false →
    (s.linkU = true → exec (.linkLoss .u) s = .next (noticed (.link .u false) { s with linkU := false })) ∧
    (s.linkU = false → exec (.linkLoss .u) s = .next s) ∧
    (s.linkU = false → exec (.linkReturn .u) s = .next (noticed (.link .u true) { s with linkU := true })) ∧
    (s.linkU = true → exec (.linkReturn .u) s = .next s) ∧
    (s.linkD = false → exec (.linkReturn .d) s = .next (noticed (.link .d true) { s with linkD := true })) ∧
    (s.linkD = true → exec (.linkReturn .d) s = .next s) ∧
    (s.linkD = false → exec (.linkLoss .d) s = .next s) ∧
    (s.linkD = true →
      let cleared := noticed (.link .d false)
        { s with
          turbines := s.turbines.map fun x =>
            { x with live := { x.live with move := .idle, slot := none, owner := none, deadline := .absent } }
          waves := [], quiet := none, quietDue := false
          neutral := { active := false, cause := none, steps := [] }
          divider := { list := [], stage := s.divider.stage.map fun v => { v with discard := true } }
          high := [], low := [], retargets := [], lowSlots := 0, highSlots := 0, motion := false
          queueD := [], linkD := false }
      exec (.linkLoss .d) s =
        .next (if s.mode = .pass then cleared
          else noticed (.mode .pass .link)
            { cleared with mode := .pass, cause := .link, lapse := .stopped, lapseDue := false }))

/-! ### The divider, the arbiter and the waves -/

/-- R107, R109, R112, R113, R116: service start, and the arrival of a result: the stage takes the next head; a discarded result
reaches nothing; a DEADLINE result forms its turbine's deadline from the time base, the quotient and the move margin. That the command
changes nothing where its condition does not hold is the model's choice (notes/assumptions/10.md). -/
def Obligations.DividerServesDeadlines : Prop :=
  ∀ s : State, s.relayClosed = false →
    (s.divider.stage ≠ none ∨ s.divider.list = [] → exec .dividerServiceStart s = .next s) ∧
    (∀ head rest, s.divider = ⟨head :: rest, none⟩ →
      exec .dividerServiceStart s = .next { s with divider := ⟨rest, some ⟨head, 0, false⟩⟩ }) ∧
    (s.divider.stage = none → exec .dividerArrival s = .next s) ∧
    ∀ (list : List DivEntry) (v : Service), s.divider = ⟨list, some v⟩ →
      let next := match list with
        | [] => { s with divider := ⟨[], none⟩ }
        | head :: rest => { s with divider := ⟨rest, some ⟨head, 0, false⟩⟩ }
      (v.discard = true → exec .dividerArrival s = .next next) ∧
      ∀ (x : Turbine) (n d : Nat), v = ⟨⟨.deadline x.node, n, d⟩, 0, false⟩ → 0 < d → x ∈ s.turbines →
        (s.turbines.map fun y => y.node).Nodup → x.live.move = .moving → x.live.deadline = .pending →
        let delay := min 65535 (min 65535 (n / d) + s.params.margin)
        exec .dividerArrival s =
          .next { next with
            turbines := s.turbines.map fun y =>
              if y.node = x.node then
                { y with live := { y.live with
                  deadline := .value (s.timeBase + BitVec.ofNat 32 delay) delay } }
              else y }

/-- R78, R82, R85, R86, R109: a HOLD result that reaches a HOLDING step forms compare A within Hmin to Hmax and compare P from the slack,
and the compares are judged at once. Where the step can release with them, under a FRESH mark and with A reached, the arrival does what
STEP_RELEASE does on that state; where it cannot and P is not reached, nothing else changes; and where P is reached, the arrival does
what P_REACHED does on that state. Said where it is the only HOLDING step. -/
def Obligations.DividerFormsCompares : Prop :=
  ∀ (s : State) (list : List DivEntry) (num r n d k : Nat) (w : Wave) (st : WaveStep) (p : Plan) (e : PlanEntry),
    s.relayClosed = false → s.divider = ⟨list, some ⟨⟨.hold num r, n, d⟩, 0, false⟩⟩ → 0 < d → WavesOk s →
    w ∈ s.waves → w.num = num → w.sector = some k → s.plan? k = some p → e ∈ p.entries → e.row = r →
    st ∈ w.steps → st.row = r → st.state = .holding → st.cmpA = .pending →
    (∀ w' ∈ s.waves, ∀ st' ∈ w'.steps, st'.state = .holding → w'.num = num ∧ st'.row = r) →
    let a := min p.hmax (max p.hmin (min 65535 (n / d)))
    let cmpP := if e.slack = 0 then none else some (min 65535 (a + e.slack))
    let formed := { s with
      divider := match list with
        | [] => ⟨[], none⟩
        | head :: rest => ⟨rest, some ⟨head, 0, false⟩⟩
      waves := s.waves.map fun w' =>
        if w'.num = num then
          { w' with steps := w'.steps.map fun x =>
              if x.row = r then { x with cmpA := .value a, cmpP := cmpP } else x }
        else w' }
    (s.mark = .stale ∨ (st.hold < a ∧ st.forced = false) ∨ formed.canRelease num r = false →
      (∀ v, cmpP = some v → st.hold < v) → NothingQueued s → ModeStands s → exec .dividerArrival s = .next formed) ∧
    (st.owesTest = false → (∀ st' ∈ w.steps, st'.forced = true → st'.row = r) → formed.canRelease num r = true →
      exec .dividerArrival s = exec (.stepRelease num r) formed ∧ ∃ t : State, exec .dividerArrival s = .next t ∧
        ∀ w' ∈ t.waves, w'.num = num → ∀ st' ∈ w'.steps, st'.row = r → ¬st'.state.unreleased) ∧
    (st.owesTest = false → st.owesDeadline = false → (∃ v, cmpP = some v ∧ v ≤ st.hold) →
      exec .dividerArrival s = exec (.pReached num r) formed)

/-- R37, R48, R71, R77, R80, R81, R82, R88, R89, R90, R96: the release of a step: where its five conditions hold it queues the members
that need motion in column order, counts every member taken on needed, and those at their target or with FAULT set settled or faulted,
and enters RELEASING; or, when it queues none, DONE with SET taken, starting a WAITING successor that it has not triggered and judging its
wave's completion. An unforced release clears the latches that the gate tests, and renews both references if it tests any; any other
release leaves them. Where the conditions do not hold, nothing changes. Said where it is the only HOLDING step and the yaw-hold line
keeps its requests waiting. That the command changes nothing where its condition does
not hold is the model's choice (notes/assumptions/10.md). -/
def Obligations.StepReleaseQueues : Prop :=
  (∀ (s : State) (num r : Nat), s.canRelease num r = false → exec (.stepRelease num r) s = .next s) ∧
  ∀ (s : State) (num r : Nat) (w : Wave) (st : WaveStep), s.relayClosed = false → WavesOk s → RowTableOk s →
    r ≤ 15 → w ∈ s.waves → w.num = num → st ∈ w.steps → st.row = r → s.canRelease num r = true →
    (∀ w' ∈ s.waves, ∀ st' ∈ w'.steps, st'.state = .holding → w'.num = num ∧ st'.row = r) →
    (∀ st' ∈ w.steps, st'.forced = true → st'.row = r) →
    (∀ x ∈ s.turbines, x.live.owner ≠ some (.low num r)) →
    s.high = [] → s.retargets = [] → s.holdActive = true →
    let queued := queuedAtRelease s w.targets r
    ∃ t : State, exec (.stepRelease num r) s = .next t ∧ t.low = s.low ++ queued ∧
      (∀ n ∈ queued, ∃ y ∈ t.turbines, y.node = n ∧ y.live.move = .queued ∧
        y.live.owner = some (.low num r) ∧ y.live.target = targetIn w.targets n) ∧
      (∀ x ∈ s.turbines, x.node ∉ queued → x ∈ t.turbines) ∧
      (let renewed := st.forced = false ∧ (st.gate.testsW = true ∨ st.gate.testsG = true)
        let w1 := { w with
          latchW := w.latchW && (st.forced || !st.gate.testsW)
          latchG := w.latchG && (st.forced || !st.gate.testsG)
          dRef := if renewed then some s.df else w.dRef
          uRef := if renewed then some s.uf else w.uRef }
        let st1 := { st with
          forced := false, owesTest := false, owesDeadline := false
          needed := st.needed + (s.members r).countP (fun n => (targetIn w.targets n).isSome)
          settled := st.settled + (settledAtRelease s w.targets r).length
          faulted := st.faulted + (faultedAtRelease s w.targets r).length }
        (queued ≠ [] →
          { w1 with steps := w.steps.map fun o => if o.row = r then { st1 with state := .releasing } else o } ∈ t.waves ∧
            t.divider = s.divider) ∧
        (queued = [] →
          ((∃ o ∈ w.steps, o.row ≠ r ∧ o.state.terminal = false) →
            withDone s w1 { st1 with state := .done, set := some st.hold } ∈ t.waves) ∧
          ((∀ o ∈ w.steps, o.row ≠ r → o.state.terminal = true) → ∀ w' ∈ t.waves, w'.num ≠ num) ∧
          ∀ p, w.sector.bind s.plan? = some p → t.divider = afterDone s w p st s.divider)) ∧
      t.quiet = s.quiet ∧ Steady s t

/-- R44, R77, R79, R81, R85, R86, R87: A_REACHED and P_REACHED: a step that can release does so as STEP_RELEASE says; one that cannot
stays HOLDING at A, and at P its deadline action acts, once. RELEASE sets the forced mark, and the step then does what STEP_RELEASE does
where it can release with the mark, and otherwise keeps it and stays HOLDING; SKIP makes it SKIPPED and counts one skip with its notice; a
WAITING successor then holds with its hold-time request placed, and the step, whose compares are formed, has no request to withdraw. A
step at P is judged there at A_REACHED too. A compare that is not reached changes nothing. Said where it is the only HOLDING step and, but
for the releases, nothing is queued.
That the command changes nothing where its condition does not hold is the model's choice (notes/assumptions/10.md). -/
def Obligations.ComparesReached : Prop :=
  (∀ (s : State) (num r : Nat),
    (∀ st, s.step? num r = some st → st.state = .holding → ∀ a, st.cmpA = .value a → st.hold < a) →
    exec (.aReached num r) s = .next s) ∧
  (∀ (s : State) (num r : Nat),
    (∀ st, s.step? num r = some st → st.state = .holding → ∀ p, st.cmpP = some p → st.hold < p) →
    exec (.pReached num r) s = .next s) ∧
  ∀ (s : State) (num r : Nat) (w : Wave) (st : WaveStep) (a : Nat), s.relayClosed = false → WavesOk s →
    w ∈ s.waves → w.num = num → w.running = true → st ∈ w.steps → st.row = r → st.state = .holding →
    st.cmpA = .value a → a ≤ st.hold →
    (∀ w' ∈ s.waves, ∀ st' ∈ w'.steps, st'.state = .holding → w'.num = num ∧ st'.row = r) →
    (∀ st' ∈ w.steps, st'.forced = true → st'.row = r) →
    (s.canRelease num r = true →
      exec (.aReached num r) s = exec (.stepRelease num r) s ∧ ∃ t : State, exec (.aReached num r) s = .next t ∧
        ∀ w' ∈ t.waves, w'.num = num → ∀ st' ∈ w'.steps, st'.row = r → ¬st'.state.unreleased) ∧
    let noted := fun mark : Bool => { s with waves := s.waves.map fun w' =>
      if w'.num = num then
        { w' with steps := w'.steps.map fun x =>
            if x.row = r then { x with owesTest := false, owesDeadline := false, forced := mark } else x }
      else w' }
    (s.canRelease num r = false → NothingQueued s → ModeStands s → (∀ p, st.cmpP = some p → st.hold < p) →
      exec (.aReached num r) s = .next (noted st.forced)) ∧
    ((∃ p, st.cmpP = some p ∧ p ≤ st.hold) → exec (.aReached num r) s = exec (.pReached num r) s) ∧
    (s.canRelease num r = true → (∃ p, st.cmpP = some p ∧ p ≤ st.hold) →
      exec (.pReached num r) s = exec (.stepRelease num r) s ∧ ∃ t : State, exec (.pReached num r) s = .next t ∧
        ∀ w' ∈ t.waves, w'.num = num → ∀ st' ∈ w'.steps, st'.row = r → ¬st'.state.unreleased) ∧
    (s.canRelease num r = false → (∃ p, st.cmpP = some p ∧ p ≤ st.hold) →
      (st.forced = true → NothingQueued s → ModeStands s → exec (.pReached num r) s = .next (noted true)) ∧
      (st.forced = false → st.action = .release → (noted true).canRelease num r = true →
        exec (.pReached num r) s = exec (.stepRelease num r) (noted true) ∧
          ∃ t : State, exec (.pReached num r) s = .next t ∧
            ∀ w' ∈ t.waves, w'.num = num → ∀ st' ∈ w'.steps, st'.row = r → ¬st'.state.unreleased) ∧
      (st.forced = false → st.action = .release → (noted true).canRelease num r = false → NothingQueued s → ModeStands s →
        exec (.pReached num r) s = .next (noted true)) ∧
      (st.forced = false → st.action = .skip → NothingQueued s → ModeStands s →
        ∃ (t : State) (rest : List QueuedFrame), exec (.pReached num r) s = .next t ∧
        t.counters.skips = s.counters.skips + 1 ∧
        t.queueU = (noticed (.stepSkipped num r .deadline) s).queueU ++ rest ∧
        (∀ w' ∈ t.waves, w'.num = num → ∃ st' ∈ w'.steps, st'.row = r ∧ st'.state = .skipped) ∧
        (∀ next, w.successor r = some next → next.state = .waiting →
          ∃ w' ∈ t.waves, w'.num = num ∧ ∃ st' ∈ w'.steps, st'.row = next.row ∧ st'.state = .holding ∧
            st'.cmpA = .pending) ∧
        (∀ k p, w.sector = some k → s.plan? k = some p → t.divider = afterTrigger s w p r s.divider) ∧
        (∀ w' ∈ t.waves, w'.num = num → ∀ st' ∈ w'.steps, st'.row = r → st'.cmpA = st.cmpA) ∧
        t.turbines = s.turbines ∧ NothingQueued t ∧ t.quiet = s.quiet ∧ Steady s t))

/-- R77, R80, R81, R93, R111, R112, R128 to R132, R155: when a request can be granted, and which: the head of the HIGH list, or with
that list empty the head of the LOW list while the yaw-hold line is inactive. A grant that no other can follow, since it takes the only
request or the last free own place: the request leaves its list, the turbine's SETPOINT frame is placed, the record becomes MOVING with
the slot of the list's class, the slot is counted, MOTION is asserted, and the DEADLINE request is placed. The owner is told: a
RELEASING LOW step takes REL if it has none, its first grant starting a WAITING successor in hold-start mode RELEASE, whose hold-time
request is then placed behind the other, and a RELEASING step, LOW or neutral, becomes MOVING when no request of it is left in its list.
Where more can follow, they do until the condition fails: each takes the next head, HIGH before LOW, with a frame and a slot of its own.
Where the grant condition fails, or retargets wait, nothing changes. That the command changes nothing where its condition does not hold
is the model's choice (notes/assumptions/10.md). -/
def Obligations.GrantPlacesFrame : Prop :=
  (∀ s : State, s.holdActive = true ↔
    (s.params.polarity = .highActive ∧ s.yholdLine = true) ∨ (s.params.polarity = .lowActive ∧ s.yholdLine = false)) ∧
  (∀ (s : State) (n : Nat) (c : SlotClass), s.grantable = some (n, c) ↔
    s.queueD.countP (fun f => f.own) < 8 ∧
      ((c = .high ∧ s.high.head? = some n ∧ s.lowSlots + s.highSlots < s.params.budget + s.params.headroom) ∨
        (c = .low ∧ s.high = [] ∧ s.low.head? = some n ∧ s.lowSlots + s.highSlots < s.params.budget ∧
          s.holdActive = false))) ∧
  (∀ s : State, (s.retargets ≠ [] ∨ s.grantable = none) → exec .grant s = .next s) ∧
  ∀ (s : State) (x : Turbine) (o : Owner) (g : Int) (c : SlotClass), s.relayClosed = false →
    (s.turbines.map fun y => y.node).Nodup → x ∈ s.turbines → x.live.owner = some o → x.live.target = some g →
    s.retargets = [] → s.grantable = some (x.node, c) →
    let set := match o with
      | .low num _ => ((s.wave? num).map fun w => w.set).getD 0
      | .neutral _ => 0
    let start := (x.live.applied.or x.live.commanded).getD 0
    let request : DivEntry := ⟨.deadline x.node, 100 * (g - start).natAbs, x.config.rate⟩
    let frame : QueuedFrame := ⟨true, controlFrame s.params.controlType 1
      ⟨0xFFFFFFFFFFFF, s.station, byte x.node, s.nodeAddr, byte set, 1⟩
      ([byte x.node, 1] ++ bytes16 (x.config.format.command g))⟩
    ((∀ n ∈ s.high ++ s.low, ∃ y ∈ s.turbines, y.node = n) →
      ∃ (t : State) (more : List QueuedFrame), exec .grant s = .next t ∧ t.queueD = s.queueD ++ frame :: more ∧
        (∀ f ∈ more, f.own = true) ∧ t.high = s.high.drop (more.length + 1) ∧
        t.high ++ t.low = (s.high ++ s.low).drop (more.length + 1) ∧
        t.lowSlots + t.highSlots = s.lowSlots + s.highSlots + (more.length + 1) ∧ t.motion = true ∧ ArbiterServed t ∧
        t.mode = s.mode ∧ t.quiet = s.quiet ∧ t.queueU = s.queueU ∧ Steady s t) ∧
    (s.queueD.countP (fun f => f.own) = 7 ∨ s.high ++ s.low = [x.node] → ∃ t : State, exec .grant s = .next t ∧ t.retargets = [] ∧
      t.high = (if c = .high then s.high.drop 1 else s.high) ∧ t.low = (if c = .low then s.low.drop 1 else s.low) ∧
      t.queueD = s.queueD ++ [frame] ∧
      t.turbines = (s.turbines.map fun y =>
        if y.node = x.node then
          { y with live := { y.live with
            move := .moving, slot := some c, commanded := some g, deadline := .pending } }
        else y) ∧
      t.lowSlots = s.lowSlots + (if c = .low then 1 else 0) ∧
      t.highSlots = s.highSlots + (if c = .high then 1 else 0) ∧ t.motion = true ∧
      (∀ r, o = .neutral r → t.divider = s.divider.place request) ∧
      (∀ num r, o = .low num r → WavesOk s → ∀ w ∈ s.waves, w.num = num → ∀ st ∈ w.steps, st.row = r →
        ∀ k p, w.sector = some k → s.plan? k = some p →
        t.divider = if st.rel = none ∧ p.holdStart = .release then afterTrigger s w p r (s.divider.place request)
          else s.divider.place request) ∧
      (∀ num r, o = .low num r → WavesOk s → ∀ w ∈ s.waves, w.num = num → ∀ st ∈ w.steps, st.row = r →
        st.state = .releasing → ∃ w' ∈ t.waves, w'.num = num ∧
          (∃ st' ∈ w'.steps, st'.row = r ∧ st' = { st with
            state := if t.low.any fun n => s.ownerOf n == some o then .releasing else .moving
            rel := some (st.rel.getD st.hold) }) ∧
          (∀ k p next, st.rel = none → w.sector = some k → s.plan? k = some p → p.holdStart = .release →
            w.successor r = some next → next.state = .waiting →
            ∃ n ∈ w'.steps, n.row = next.row ∧ n.state = .holding ∧ n.hold = 0 ∧ n.cmpA = .pending)) ∧
      (∀ r, o = .neutral r → ∀ k ∈ s.neutral.steps, k.row = r →
        { k with
          state := if k.state = .releasing ∧ (t.high.any fun n => s.ownerOf n == some o) = false then .moving
            else k.state } ∈ t.neutral.steps) ∧
      t.mode = s.mode ∧ t.quiet = s.quiet ∧ t.queueU = s.queueU ∧ Steady s t)

/-- R138, R131, R111, R112, R137: a retarget frame for the only turbine on the retarget list: it leaves the list, its target-0 frame
is placed with set number 0, the commanded offset becomes 0, and it becomes MOVING in its HIGH slot with a DEADLINE request placed;
the slot count stays. With the list empty or no own place free, nothing changes. That the command changes nothing where its condition
does not hold is the model's choice (notes/assumptions/10.md). -/
def Obligations.RetargetPlacesFrame : Prop :=
  (∀ s : State, (s.retargets = [] ∨ 8 ≤ s.queueD.countP (fun f => f.own)) → exec .retargetFrame s = .next s) ∧
  ∀ (s : State) (x : Turbine), s.relayClosed = false → (s.turbines.map fun y => y.node).Nodup → x ∈ s.turbines →
    s.retargets = [x.node] → s.high = [] → s.low = [] → s.queueD.countP (fun f => f.own) < 8 →
    let start := (x.live.applied.or x.live.commanded).getD 0
    exec .retargetFrame s =
      .next { s with
        retargets := []
        queueD := s.queueD ++ [⟨true, controlFrame s.params.controlType 1
          ⟨0xFFFFFFFFFFFF, s.station, byte x.node, s.nodeAddr, 0, 1⟩
          ([byte x.node, 1] ++ bytes16 (x.config.format.command 0))⟩]
        turbines := s.turbines.map fun y =>
          if y.node = x.node then
            { y with live := { y.live with
              move := .moving, slot := some .high, commanded := some 0, deadline := .pending } }
          else y
        divider := s.divider.place ⟨.deadline x.node, 100 * start.natAbs, x.config.rate⟩ }

/-- R71, R148, R150, R183: the completion of a wave removes its record, counts it and builds its WAVE_DONE notice, and the ends of
DRAIN and RETURN enter PASS with cause COMPLETE, the lapse timer stopped and a MODE notice; where the condition does not hold, nothing
changes. That the command changes nothing where its condition does not hold is the model's choice (notes/assumptions/10.md). -/
def Obligations.WaveAndModeEnds : Prop :=
  (∀ (s : State) (num : Nat), (∀ w ∈ s.waves, w.num = num → w.finished = false) →
    exec (.waveCompletion num) s = .next s) ∧
  (∀ (s : State) (older younger : List Wave) (w : Wave), s.relayClosed = false → s.waves = older ++ w :: younger →
    (s.waves.map fun x => x.num).Nodup → w.running = true → (∀ st ∈ w.steps, st.state.terminal = true) →
    NoHolding s → NothingQueued s →
    let total := fun f : WaveStep → Nat => (w.steps.map f).sum
    let number := fun x : StepState => w.steps.countP fun st => st.state == x
    let gone := noticed (.waveDone w.num w.set [number .done, number .skipped, number .cancelled, number .empty]
        [total fun st => st.needed, total fun st => st.settled, total fun st => st.stalled,
          total fun st => st.faulted, total fun st => st.superseded, total fun st => st.cancelled])
      { s with waves := older ++ younger, counters := { s.counters with done := s.counters.done + 1 } }
    (ModeStands gone → exec (.waveCompletion w.num) s = .next gone) ∧
    (¬ModeStands gone → exec (.waveCompletion w.num) s = .next (noticed (.mode .pass .complete)
      { gone with mode := .pass, cause := .complete, lapse := .stopped, lapseDue := false }))) ∧
  ∀ s : State, s.relayClosed = false →
    let ended := noticed (.mode .pass .complete)
      { s with mode := .pass, cause := .complete, lapse := .stopped, lapseDue := false }
    ((s.mode = .drain ∧ s.waves = [] ∧ s.neutral.active = false) → exec .drainEnd s = .next ended) ∧
    (¬(s.mode = .drain ∧ s.waves = [] ∧ s.neutral.active = false) → exec .drainEnd s = .next s) ∧
    ((s.mode = .returning ∧ s.neutral.active = false) → exec .returnEnd s = .next ended) ∧
    (¬(s.mode = .returning ∧ s.neutral.active = false) → exec .returnEnd s = .next s)
end

