-- ==== Sys2Proof/Laws/State.lean ====
section
/-! SUPPORT. One lemma a field for each plain update of the state: the fields the update leaves alone, true by `rfl`. -/

namespace Sys2Proof.Machine.State

variable (s : State)

/-! ### updLive -/

@[simp] theorem updLive_relayClosed (n : Nat) (g : Live → Live) : (s.updLive n g).relayClosed = s.relayClosed := rfl
@[simp] theorem updLive_stormLine (n : Nat) (g : Live → Live) : (s.updLive n g).stormLine = s.stormLine := rfl
@[simp] theorem updLive_yholdLine (n : Nat) (g : Live → Live) : (s.updLive n g).yholdLine = s.yholdLine := rfl
@[simp] theorem updLive_motion (n : Nat) (g : Live → Live) : (s.updLive n g).motion = s.motion := rfl
@[simp] theorem updLive_nodeAddr (n : Nat) (g : Live → Live) : (s.updLive n g).nodeAddr = s.nodeAddr := rfl
@[simp] theorem updLive_station (n : Nat) (g : Live → Live) : (s.updLive n g).station = s.station := rfl
@[simp] theorem updLive_supervisor (n : Nat) (g : Live → Live) : (s.updLive n g).supervisor = s.supervisor := rfl
@[simp] theorem updLive_params (n : Nat) (g : Live → Live) : (s.updLive n g).params = s.params := rfl
@[simp] theorem updLive_rows (n : Nat) (g : Live → Live) : (s.updLive n g).rows = s.rows := rfl
@[simp] theorem updLive_sources (n : Nat) (g : Live → Live) : (s.updLive n g).sources = s.sources := rfl
@[simp] theorem updLive_filter (n : Nat) (g : Live → Live) : (s.updLive n g).filter = s.filter := rfl
@[simp] theorem updLive_mark (n : Nat) (g : Live → Live) : (s.updLive n g).mark = s.mark := rfl
@[simp] theorem updLive_sector (n : Nat) (g : Live → Live) : (s.updLive n g).sector = s.sector := rfl
@[simp] theorem updLive_plans (n : Nat) (g : Live → Live) : (s.updLive n g).plans = s.plans := rfl
@[simp] theorem updLive_waves (n : Nat) (g : Live → Live) : (s.updLive n g).waves = s.waves := rfl
@[simp] theorem updLive_waveCounter (n : Nat) (g : Live → Live) : (s.updLive n g).waveCounter = s.waveCounter := rfl
@[simp] theorem updLive_quiet (n : Nat) (g : Live → Live) : (s.updLive n g).quiet = s.quiet := rfl
@[simp] theorem updLive_neutral (n : Nat) (g : Live → Live) : (s.updLive n g).neutral = s.neutral := rfl
@[simp] theorem updLive_divider (n : Nat) (g : Live → Live) : (s.updLive n g).divider = s.divider := rfl
@[simp] theorem updLive_timeBase (n : Nat) (g : Live → Live) : (s.updLive n g).timeBase = s.timeBase := rfl
@[simp] theorem updLive_high (n : Nat) (g : Live → Live) : (s.updLive n g).high = s.high := rfl
@[simp] theorem updLive_low (n : Nat) (g : Live → Live) : (s.updLive n g).low = s.low := rfl
@[simp] theorem updLive_retargets (n : Nat) (g : Live → Live) : (s.updLive n g).retargets = s.retargets := rfl
@[simp] theorem updLive_lowSlots (n : Nat) (g : Live → Live) : (s.updLive n g).lowSlots = s.lowSlots := rfl
@[simp] theorem updLive_highSlots (n : Nat) (g : Live → Live) : (s.updLive n g).highSlots = s.highSlots := rfl
@[simp] theorem updLive_mode (n : Nat) (g : Live → Live) : (s.updLive n g).mode = s.mode := rfl
@[simp] theorem updLive_cause (n : Nat) (g : Live → Live) : (s.updLive n g).cause = s.cause := rfl
@[simp] theorem updLive_storm (n : Nat) (g : Live → Live) : (s.updLive n g).storm = s.storm := rfl
@[simp] theorem updLive_lapse (n : Nat) (g : Live → Live) : (s.updLive n g).lapse = s.lapse := rfl
@[simp] theorem updLive_linkU (n : Nat) (g : Live → Live) : (s.updLive n g).linkU = s.linkU := rfl
@[simp] theorem updLive_linkD (n : Nat) (g : Live → Live) : (s.updLive n g).linkD = s.linkD := rfl
@[simp] theorem updLive_queueU (n : Nat) (g : Live → Live) : (s.updLive n g).queueU = s.queueU := rfl
@[simp] theorem updLive_queueD (n : Nat) (g : Live → Live) : (s.updLive n g).queueD = s.queueD := rfl
@[simp] theorem updLive_countersU (n : Nat) (g : Live → Live) : (s.updLive n g).countersU = s.countersU := rfl
@[simp] theorem updLive_countersD (n : Nat) (g : Live → Live) : (s.updLive n g).countersD = s.countersD := rfl
@[simp] theorem updLive_discardedManage (n : Nat) (g : Live → Live) : (s.updLive n g).discardedManage = s.discardedManage := rfl
@[simp] theorem updLive_ownDropped (n : Nat) (g : Live → Live) : (s.updLive n g).ownDropped = s.ownDropped := rfl
@[simp] theorem updLive_counters (n : Nat) (g : Live → Live) : (s.updLive n g).counters = s.counters := rfl
@[simp] theorem updLive_estimateDue (n : Nat) (g : Live → Live) : (s.updLive n g).estimateDue = s.estimateDue := rfl
@[simp] theorem updLive_quietDue (n : Nat) (g : Live → Live) : (s.updLive n g).quietDue = s.quietDue := rfl
@[simp] theorem updLive_lapseDue (n : Nat) (g : Live → Live) : (s.updLive n g).lapseDue = s.lapseDue := rfl
@[simp] theorem updLive_draws (n : Nat) (g : Live → Live) : (s.updLive n g).draws = s.draws := rfl
@[simp] theorem updLive_pending (n : Nat) (g : Live → Live) : (s.updLive n g).pending = s.pending := rfl

/-! ### updRow -/

@[simp] theorem updRow_relayClosed (r : Nat) (g : Row → Row) : (s.updRow r g).relayClosed = s.relayClosed := rfl
@[simp] theorem updRow_stormLine (r : Nat) (g : Row → Row) : (s.updRow r g).stormLine = s.stormLine := rfl
@[simp] theorem updRow_yholdLine (r : Nat) (g : Row → Row) : (s.updRow r g).yholdLine = s.yholdLine := rfl
@[simp] theorem updRow_motion (r : Nat) (g : Row → Row) : (s.updRow r g).motion = s.motion := rfl
@[simp] theorem updRow_nodeAddr (r : Nat) (g : Row → Row) : (s.updRow r g).nodeAddr = s.nodeAddr := rfl
@[simp] theorem updRow_station (r : Nat) (g : Row → Row) : (s.updRow r g).station = s.station := rfl
@[simp] theorem updRow_supervisor (r : Nat) (g : Row → Row) : (s.updRow r g).supervisor = s.supervisor := rfl
@[simp] theorem updRow_params (r : Nat) (g : Row → Row) : (s.updRow r g).params = s.params := rfl
@[simp] theorem updRow_turbines (r : Nat) (g : Row → Row) : (s.updRow r g).turbines = s.turbines := rfl
@[simp] theorem updRow_sources (r : Nat) (g : Row → Row) : (s.updRow r g).sources = s.sources := rfl
@[simp] theorem updRow_filter (r : Nat) (g : Row → Row) : (s.updRow r g).filter = s.filter := rfl
@[simp] theorem updRow_mark (r : Nat) (g : Row → Row) : (s.updRow r g).mark = s.mark := rfl
@[simp] theorem updRow_sector (r : Nat) (g : Row → Row) : (s.updRow r g).sector = s.sector := rfl
@[simp] theorem updRow_plans (r : Nat) (g : Row → Row) : (s.updRow r g).plans = s.plans := rfl
@[simp] theorem updRow_waves (r : Nat) (g : Row → Row) : (s.updRow r g).waves = s.waves := rfl
@[simp] theorem updRow_waveCounter (r : Nat) (g : Row → Row) : (s.updRow r g).waveCounter = s.waveCounter := rfl
@[simp] theorem updRow_quiet (r : Nat) (g : Row → Row) : (s.updRow r g).quiet = s.quiet := rfl
@[simp] theorem updRow_neutral (r : Nat) (g : Row → Row) : (s.updRow r g).neutral = s.neutral := rfl
@[simp] theorem updRow_divider (r : Nat) (g : Row → Row) : (s.updRow r g).divider = s.divider := rfl
@[simp] theorem updRow_timeBase (r : Nat) (g : Row → Row) : (s.updRow r g).timeBase = s.timeBase := rfl
@[simp] theorem updRow_high (r : Nat) (g : Row → Row) : (s.updRow r g).high = s.high := rfl
@[simp] theorem updRow_low (r : Nat) (g : Row → Row) : (s.updRow r g).low = s.low := rfl
@[simp] theorem updRow_retargets (r : Nat) (g : Row → Row) : (s.updRow r g).retargets = s.retargets := rfl
@[simp] theorem updRow_lowSlots (r : Nat) (g : Row → Row) : (s.updRow r g).lowSlots = s.lowSlots := rfl
@[simp] theorem updRow_highSlots (r : Nat) (g : Row → Row) : (s.updRow r g).highSlots = s.highSlots := rfl
@[simp] theorem updRow_mode (r : Nat) (g : Row → Row) : (s.updRow r g).mode = s.mode := rfl
@[simp] theorem updRow_cause (r : Nat) (g : Row → Row) : (s.updRow r g).cause = s.cause := rfl
@[simp] theorem updRow_storm (r : Nat) (g : Row → Row) : (s.updRow r g).storm = s.storm := rfl
@[simp] theorem updRow_lapse (r : Nat) (g : Row → Row) : (s.updRow r g).lapse = s.lapse := rfl
@[simp] theorem updRow_linkU (r : Nat) (g : Row → Row) : (s.updRow r g).linkU = s.linkU := rfl
@[simp] theorem updRow_linkD (r : Nat) (g : Row → Row) : (s.updRow r g).linkD = s.linkD := rfl
@[simp] theorem updRow_queueU (r : Nat) (g : Row → Row) : (s.updRow r g).queueU = s.queueU := rfl
@[simp] theorem updRow_queueD (r : Nat) (g : Row → Row) : (s.updRow r g).queueD = s.queueD := rfl
@[simp] theorem updRow_countersU (r : Nat) (g : Row → Row) : (s.updRow r g).countersU = s.countersU := rfl
@[simp] theorem updRow_countersD (r : Nat) (g : Row → Row) : (s.updRow r g).countersD = s.countersD := rfl
@[simp] theorem updRow_discardedManage (r : Nat) (g : Row → Row) : (s.updRow r g).discardedManage = s.discardedManage := rfl
@[simp] theorem updRow_ownDropped (r : Nat) (g : Row → Row) : (s.updRow r g).ownDropped = s.ownDropped := rfl
@[simp] theorem updRow_counters (r : Nat) (g : Row → Row) : (s.updRow r g).counters = s.counters := rfl
@[simp] theorem updRow_estimateDue (r : Nat) (g : Row → Row) : (s.updRow r g).estimateDue = s.estimateDue := rfl
@[simp] theorem updRow_quietDue (r : Nat) (g : Row → Row) : (s.updRow r g).quietDue = s.quietDue := rfl
@[simp] theorem updRow_lapseDue (r : Nat) (g : Row → Row) : (s.updRow r g).lapseDue = s.lapseDue := rfl
@[simp] theorem updRow_draws (r : Nat) (g : Row → Row) : (s.updRow r g).draws = s.draws := rfl
@[simp] theorem updRow_pending (r : Nat) (g : Row → Row) : (s.updRow r g).pending = s.pending := rfl

/-! ### setMask -/

@[simp] theorem setMask_relayClosed (r : Nat) (b : Bool) : (s.setMask r b).relayClosed = s.relayClosed := rfl
@[simp] theorem setMask_stormLine (r : Nat) (b : Bool) : (s.setMask r b).stormLine = s.stormLine := rfl
@[simp] theorem setMask_yholdLine (r : Nat) (b : Bool) : (s.setMask r b).yholdLine = s.yholdLine := rfl
@[simp] theorem setMask_motion (r : Nat) (b : Bool) : (s.setMask r b).motion = s.motion := rfl
@[simp] theorem setMask_nodeAddr (r : Nat) (b : Bool) : (s.setMask r b).nodeAddr = s.nodeAddr := rfl
@[simp] theorem setMask_station (r : Nat) (b : Bool) : (s.setMask r b).station = s.station := rfl
@[simp] theorem setMask_supervisor (r : Nat) (b : Bool) : (s.setMask r b).supervisor = s.supervisor := rfl
@[simp] theorem setMask_params (r : Nat) (b : Bool) : (s.setMask r b).params = s.params := rfl
@[simp] theorem setMask_turbines (r : Nat) (b : Bool) : (s.setMask r b).turbines = s.turbines := rfl
@[simp] theorem setMask_sources (r : Nat) (b : Bool) : (s.setMask r b).sources = s.sources := rfl
@[simp] theorem setMask_filter (r : Nat) (b : Bool) : (s.setMask r b).filter = s.filter := rfl
@[simp] theorem setMask_mark (r : Nat) (b : Bool) : (s.setMask r b).mark = s.mark := rfl
@[simp] theorem setMask_sector (r : Nat) (b : Bool) : (s.setMask r b).sector = s.sector := rfl
@[simp] theorem setMask_plans (r : Nat) (b : Bool) : (s.setMask r b).plans = s.plans := rfl
@[simp] theorem setMask_waves (r : Nat) (b : Bool) : (s.setMask r b).waves = s.waves := rfl
@[simp] theorem setMask_waveCounter (r : Nat) (b : Bool) : (s.setMask r b).waveCounter = s.waveCounter := rfl
@[simp] theorem setMask_quiet (r : Nat) (b : Bool) : (s.setMask r b).quiet = s.quiet := rfl
@[simp] theorem setMask_neutral (r : Nat) (b : Bool) : (s.setMask r b).neutral = s.neutral := rfl
@[simp] theorem setMask_divider (r : Nat) (b : Bool) : (s.setMask r b).divider = s.divider := rfl
@[simp] theorem setMask_timeBase (r : Nat) (b : Bool) : (s.setMask r b).timeBase = s.timeBase := rfl
@[simp] theorem setMask_high (r : Nat) (b : Bool) : (s.setMask r b).high = s.high := rfl
@[simp] theorem setMask_low (r : Nat) (b : Bool) : (s.setMask r b).low = s.low := rfl
@[simp] theorem setMask_retargets (r : Nat) (b : Bool) : (s.setMask r b).retargets = s.retargets := rfl
@[simp] theorem setMask_lowSlots (r : Nat) (b : Bool) : (s.setMask r b).lowSlots = s.lowSlots := rfl
@[simp] theorem setMask_highSlots (r : Nat) (b : Bool) : (s.setMask r b).highSlots = s.highSlots := rfl
@[simp] theorem setMask_mode (r : Nat) (b : Bool) : (s.setMask r b).mode = s.mode := rfl
@[simp] theorem setMask_cause (r : Nat) (b : Bool) : (s.setMask r b).cause = s.cause := rfl
@[simp] theorem setMask_storm (r : Nat) (b : Bool) : (s.setMask r b).storm = s.storm := rfl
@[simp] theorem setMask_lapse (r : Nat) (b : Bool) : (s.setMask r b).lapse = s.lapse := rfl
@[simp] theorem setMask_linkU (r : Nat) (b : Bool) : (s.setMask r b).linkU = s.linkU := rfl
@[simp] theorem setMask_linkD (r : Nat) (b : Bool) : (s.setMask r b).linkD = s.linkD := rfl
@[simp] theorem setMask_queueU (r : Nat) (b : Bool) : (s.setMask r b).queueU = s.queueU := rfl
@[simp] theorem setMask_queueD (r : Nat) (b : Bool) : (s.setMask r b).queueD = s.queueD := rfl
@[simp] theorem setMask_countersU (r : Nat) (b : Bool) : (s.setMask r b).countersU = s.countersU := rfl
@[simp] theorem setMask_countersD (r : Nat) (b : Bool) : (s.setMask r b).countersD = s.countersD := rfl
@[simp] theorem setMask_discardedManage (r : Nat) (b : Bool) : (s.setMask r b).discardedManage = s.discardedManage := rfl
@[simp] theorem setMask_ownDropped (r : Nat) (b : Bool) : (s.setMask r b).ownDropped = s.ownDropped := rfl
@[simp] theorem setMask_counters (r : Nat) (b : Bool) : (s.setMask r b).counters = s.counters := rfl
@[simp] theorem setMask_estimateDue (r : Nat) (b : Bool) : (s.setMask r b).estimateDue = s.estimateDue := rfl
@[simp] theorem setMask_quietDue (r : Nat) (b : Bool) : (s.setMask r b).quietDue = s.quietDue := rfl
@[simp] theorem setMask_lapseDue (r : Nat) (b : Bool) : (s.setMask r b).lapseDue = s.lapseDue := rfl
@[simp] theorem setMask_draws (r : Nat) (b : Bool) : (s.setMask r b).draws = s.draws := rfl
@[simp] theorem setMask_pending (r : Nat) (b : Bool) : (s.setMask r b).pending = s.pending := rfl

/-! ### updWave -/

@[simp] theorem updWave_relayClosed (n : Nat) (g : Wave → Wave) : (s.updWave n g).relayClosed = s.relayClosed := rfl
@[simp] theorem updWave_stormLine (n : Nat) (g : Wave → Wave) : (s.updWave n g).stormLine = s.stormLine := rfl
@[simp] theorem updWave_yholdLine (n : Nat) (g : Wave → Wave) : (s.updWave n g).yholdLine = s.yholdLine := rfl
@[simp] theorem updWave_motion (n : Nat) (g : Wave → Wave) : (s.updWave n g).motion = s.motion := rfl
@[simp] theorem updWave_nodeAddr (n : Nat) (g : Wave → Wave) : (s.updWave n g).nodeAddr = s.nodeAddr := rfl
@[simp] theorem updWave_station (n : Nat) (g : Wave → Wave) : (s.updWave n g).station = s.station := rfl
@[simp] theorem updWave_supervisor (n : Nat) (g : Wave → Wave) : (s.updWave n g).supervisor = s.supervisor := rfl
@[simp] theorem updWave_params (n : Nat) (g : Wave → Wave) : (s.updWave n g).params = s.params := rfl
@[simp] theorem updWave_turbines (n : Nat) (g : Wave → Wave) : (s.updWave n g).turbines = s.turbines := rfl
@[simp] theorem updWave_rows (n : Nat) (g : Wave → Wave) : (s.updWave n g).rows = s.rows := rfl
@[simp] theorem updWave_sources (n : Nat) (g : Wave → Wave) : (s.updWave n g).sources = s.sources := rfl
@[simp] theorem updWave_filter (n : Nat) (g : Wave → Wave) : (s.updWave n g).filter = s.filter := rfl
@[simp] theorem updWave_mark (n : Nat) (g : Wave → Wave) : (s.updWave n g).mark = s.mark := rfl
@[simp] theorem updWave_sector (n : Nat) (g : Wave → Wave) : (s.updWave n g).sector = s.sector := rfl
@[simp] theorem updWave_plans (n : Nat) (g : Wave → Wave) : (s.updWave n g).plans = s.plans := rfl
@[simp] theorem updWave_waveCounter (n : Nat) (g : Wave → Wave) : (s.updWave n g).waveCounter = s.waveCounter := rfl
@[simp] theorem updWave_quiet (n : Nat) (g : Wave → Wave) : (s.updWave n g).quiet = s.quiet := rfl
@[simp] theorem updWave_neutral (n : Nat) (g : Wave → Wave) : (s.updWave n g).neutral = s.neutral := rfl
@[simp] theorem updWave_divider (n : Nat) (g : Wave → Wave) : (s.updWave n g).divider = s.divider := rfl
@[simp] theorem updWave_timeBase (n : Nat) (g : Wave → Wave) : (s.updWave n g).timeBase = s.timeBase := rfl
@[simp] theorem updWave_high (n : Nat) (g : Wave → Wave) : (s.updWave n g).high = s.high := rfl
@[simp] theorem updWave_low (n : Nat) (g : Wave → Wave) : (s.updWave n g).low = s.low := rfl
@[simp] theorem updWave_retargets (n : Nat) (g : Wave → Wave) : (s.updWave n g).retargets = s.retargets := rfl
@[simp] theorem updWave_lowSlots (n : Nat) (g : Wave → Wave) : (s.updWave n g).lowSlots = s.lowSlots := rfl
@[simp] theorem updWave_highSlots (n : Nat) (g : Wave → Wave) : (s.updWave n g).highSlots = s.highSlots := rfl
@[simp] theorem updWave_mode (n : Nat) (g : Wave → Wave) : (s.updWave n g).mode = s.mode := rfl
@[simp] theorem updWave_cause (n : Nat) (g : Wave → Wave) : (s.updWave n g).cause = s.cause := rfl
@[simp] theorem updWave_storm (n : Nat) (g : Wave → Wave) : (s.updWave n g).storm = s.storm := rfl
@[simp] theorem updWave_lapse (n : Nat) (g : Wave → Wave) : (s.updWave n g).lapse = s.lapse := rfl
@[simp] theorem updWave_linkU (n : Nat) (g : Wave → Wave) : (s.updWave n g).linkU = s.linkU := rfl
@[simp] theorem updWave_linkD (n : Nat) (g : Wave → Wave) : (s.updWave n g).linkD = s.linkD := rfl
@[simp] theorem updWave_queueU (n : Nat) (g : Wave → Wave) : (s.updWave n g).queueU = s.queueU := rfl
@[simp] theorem updWave_queueD (n : Nat) (g : Wave → Wave) : (s.updWave n g).queueD = s.queueD := rfl
@[simp] theorem updWave_countersU (n : Nat) (g : Wave → Wave) : (s.updWave n g).countersU = s.countersU := rfl
@[simp] theorem updWave_countersD (n : Nat) (g : Wave → Wave) : (s.updWave n g).countersD = s.countersD := rfl
@[simp] theorem updWave_discardedManage (n : Nat) (g : Wave → Wave) : (s.updWave n g).discardedManage = s.discardedManage := rfl
@[simp] theorem updWave_ownDropped (n : Nat) (g : Wave → Wave) : (s.updWave n g).ownDropped = s.ownDropped := rfl
@[simp] theorem updWave_counters (n : Nat) (g : Wave → Wave) : (s.updWave n g).counters = s.counters := rfl
@[simp] theorem updWave_estimateDue (n : Nat) (g : Wave → Wave) : (s.updWave n g).estimateDue = s.estimateDue := rfl
@[simp] theorem updWave_quietDue (n : Nat) (g : Wave → Wave) : (s.updWave n g).quietDue = s.quietDue := rfl
@[simp] theorem updWave_lapseDue (n : Nat) (g : Wave → Wave) : (s.updWave n g).lapseDue = s.lapseDue := rfl
@[simp] theorem updWave_draws (n : Nat) (g : Wave → Wave) : (s.updWave n g).draws = s.draws := rfl
@[simp] theorem updWave_pending (n : Nat) (g : Wave → Wave) : (s.updWave n g).pending = s.pending := rfl

/-! ### updStep -/

@[simp] theorem updStep_relayClosed (n r : Nat) (g : WaveStep → WaveStep) : (s.updStep n r g).relayClosed = s.relayClosed := rfl
@[simp] theorem updStep_stormLine (n r : Nat) (g : WaveStep → WaveStep) : (s.updStep n r g).stormLine = s.stormLine := rfl
@[simp] theorem updStep_yholdLine (n r : Nat) (g : WaveStep → WaveStep) : (s.updStep n r g).yholdLine = s.yholdLine := rfl
@[simp] theorem updStep_motion (n r : Nat) (g : WaveStep → WaveStep) : (s.updStep n r g).motion = s.motion := rfl
@[simp] theorem updStep_nodeAddr (n r : Nat) (g : WaveStep → WaveStep) : (s.updStep n r g).nodeAddr = s.nodeAddr := rfl
@[simp] theorem updStep_station (n r : Nat) (g : WaveStep → WaveStep) : (s.updStep n r g).station = s.station := rfl
@[simp] theorem updStep_supervisor (n r : Nat) (g : WaveStep → WaveStep) : (s.updStep n r g).supervisor = s.supervisor := rfl
@[simp] theorem updStep_params (n r : Nat) (g : WaveStep → WaveStep) : (s.updStep n r g).params = s.params := rfl
@[simp] theorem updStep_turbines (n r : Nat) (g : WaveStep → WaveStep) : (s.updStep n r g).turbines = s.turbines := rfl
@[simp] theorem updStep_rows (n r : Nat) (g : WaveStep → WaveStep) : (s.updStep n r g).rows = s.rows := rfl
@[simp] theorem updStep_sources (n r : Nat) (g : WaveStep → WaveStep) : (s.updStep n r g).sources = s.sources := rfl
@[simp] theorem updStep_filter (n r : Nat) (g : WaveStep → WaveStep) : (s.updStep n r g).filter = s.filter := rfl
@[simp] theorem updStep_mark (n r : Nat) (g : WaveStep → WaveStep) : (s.updStep n r g).mark = s.mark := rfl
@[simp] theorem updStep_sector (n r : Nat) (g : WaveStep → WaveStep) : (s.updStep n r g).sector = s.sector := rfl
@[simp] theorem updStep_plans (n r : Nat) (g : WaveStep → WaveStep) : (s.updStep n r g).plans = s.plans := rfl
@[simp] theorem updStep_waveCounter (n r : Nat) (g : WaveStep → WaveStep) : (s.updStep n r g).waveCounter = s.waveCounter := rfl
@[simp] theorem updStep_quiet (n r : Nat) (g : WaveStep → WaveStep) : (s.updStep n r g).quiet = s.quiet := rfl
@[simp] theorem updStep_neutral (n r : Nat) (g : WaveStep → WaveStep) : (s.updStep n r g).neutral = s.neutral := rfl
@[simp] theorem updStep_divider (n r : Nat) (g : WaveStep → WaveStep) : (s.updStep n r g).divider = s.divider := rfl
@[simp] theorem updStep_timeBase (n r : Nat) (g : WaveStep → WaveStep) : (s.updStep n r g).timeBase = s.timeBase := rfl
@[simp] theorem updStep_high (n r : Nat) (g : WaveStep → WaveStep) : (s.updStep n r g).high = s.high := rfl
@[simp] theorem updStep_low (n r : Nat) (g : WaveStep → WaveStep) : (s.updStep n r g).low = s.low := rfl
@[simp] theorem updStep_retargets (n r : Nat) (g : WaveStep → WaveStep) : (s.updStep n r g).retargets = s.retargets := rfl
@[simp] theorem updStep_lowSlots (n r : Nat) (g : WaveStep → WaveStep) : (s.updStep n r g).lowSlots = s.lowSlots := rfl
@[simp] theorem updStep_highSlots (n r : Nat) (g : WaveStep → WaveStep) : (s.updStep n r g).highSlots = s.highSlots := rfl
@[simp] theorem updStep_mode (n r : Nat) (g : WaveStep → WaveStep) : (s.updStep n r g).mode = s.mode := rfl
@[simp] theorem updStep_cause (n r : Nat) (g : WaveStep → WaveStep) : (s.updStep n r g).cause = s.cause := rfl
@[simp] theorem updStep_storm (n r : Nat) (g : WaveStep → WaveStep) : (s.updStep n r g).storm = s.storm := rfl
@[simp] theorem updStep_lapse (n r : Nat) (g : WaveStep → WaveStep) : (s.updStep n r g).lapse = s.lapse := rfl
@[simp] theorem updStep_linkU (n r : Nat) (g : WaveStep → WaveStep) : (s.updStep n r g).linkU = s.linkU := rfl
@[simp] theorem updStep_linkD (n r : Nat) (g : WaveStep → WaveStep) : (s.updStep n r g).linkD = s.linkD := rfl
@[simp] theorem updStep_queueU (n r : Nat) (g : WaveStep → WaveStep) : (s.updStep n r g).queueU = s.queueU := rfl
@[simp] theorem updStep_queueD (n r : Nat) (g : WaveStep → WaveStep) : (s.updStep n r g).queueD = s.queueD := rfl
@[simp] theorem updStep_countersU (n r : Nat) (g : WaveStep → WaveStep) : (s.updStep n r g).countersU = s.countersU := rfl
@[simp] theorem updStep_countersD (n r : Nat) (g : WaveStep → WaveStep) : (s.updStep n r g).countersD = s.countersD := rfl
@[simp] theorem updStep_discardedManage (n r : Nat) (g : WaveStep → WaveStep) : (s.updStep n r g).discardedManage = s.discardedManage := rfl
@[simp] theorem updStep_ownDropped (n r : Nat) (g : WaveStep → WaveStep) : (s.updStep n r g).ownDropped = s.ownDropped := rfl
@[simp] theorem updStep_counters (n r : Nat) (g : WaveStep → WaveStep) : (s.updStep n r g).counters = s.counters := rfl
@[simp] theorem updStep_estimateDue (n r : Nat) (g : WaveStep → WaveStep) : (s.updStep n r g).estimateDue = s.estimateDue := rfl
@[simp] theorem updStep_quietDue (n r : Nat) (g : WaveStep → WaveStep) : (s.updStep n r g).quietDue = s.quietDue := rfl
@[simp] theorem updStep_lapseDue (n r : Nat) (g : WaveStep → WaveStep) : (s.updStep n r g).lapseDue = s.lapseDue := rfl
@[simp] theorem updStep_draws (n r : Nat) (g : WaveStep → WaveStep) : (s.updStep n r g).draws = s.draws := rfl
@[simp] theorem updStep_pending (n r : Nat) (g : WaveStep → WaveStep) : (s.updStep n r g).pending = s.pending := rfl

/-! ### updNeutral -/

@[simp] theorem updNeutral_relayClosed (r : Nat) (g : NeutralStep → NeutralStep) : (s.updNeutral r g).relayClosed = s.relayClosed := rfl
@[simp] theorem updNeutral_stormLine (r : Nat) (g : NeutralStep → NeutralStep) : (s.updNeutral r g).stormLine = s.stormLine := rfl
@[simp] theorem updNeutral_yholdLine (r : Nat) (g : NeutralStep → NeutralStep) : (s.updNeutral r g).yholdLine = s.yholdLine := rfl
@[simp] theorem updNeutral_motion (r : Nat) (g : NeutralStep → NeutralStep) : (s.updNeutral r g).motion = s.motion := rfl
@[simp] theorem updNeutral_nodeAddr (r : Nat) (g : NeutralStep → NeutralStep) : (s.updNeutral r g).nodeAddr = s.nodeAddr := rfl
@[simp] theorem updNeutral_station (r : Nat) (g : NeutralStep → NeutralStep) : (s.updNeutral r g).station = s.station := rfl
@[simp] theorem updNeutral_supervisor (r : Nat) (g : NeutralStep → NeutralStep) : (s.updNeutral r g).supervisor = s.supervisor := rfl
@[simp] theorem updNeutral_params (r : Nat) (g : NeutralStep → NeutralStep) : (s.updNeutral r g).params = s.params := rfl
@[simp] theorem updNeutral_turbines (r : Nat) (g : NeutralStep → NeutralStep) : (s.updNeutral r g).turbines = s.turbines := rfl
@[simp] theorem updNeutral_rows (r : Nat) (g : NeutralStep → NeutralStep) : (s.updNeutral r g).rows = s.rows := rfl
@[simp] theorem updNeutral_sources (r : Nat) (g : NeutralStep → NeutralStep) : (s.updNeutral r g).sources = s.sources := rfl
@[simp] theorem updNeutral_filter (r : Nat) (g : NeutralStep → NeutralStep) : (s.updNeutral r g).filter = s.filter := rfl
@[simp] theorem updNeutral_mark (r : Nat) (g : NeutralStep → NeutralStep) : (s.updNeutral r g).mark = s.mark := rfl
@[simp] theorem updNeutral_sector (r : Nat) (g : NeutralStep → NeutralStep) : (s.updNeutral r g).sector = s.sector := rfl
@[simp] theorem updNeutral_plans (r : Nat) (g : NeutralStep → NeutralStep) : (s.updNeutral r g).plans = s.plans := rfl
@[simp] theorem updNeutral_waves (r : Nat) (g : NeutralStep → NeutralStep) : (s.updNeutral r g).waves = s.waves := rfl
@[simp] theorem updNeutral_waveCounter (r : Nat) (g : NeutralStep → NeutralStep) : (s.updNeutral r g).waveCounter = s.waveCounter := rfl
@[simp] theorem updNeutral_quiet (r : Nat) (g : NeutralStep → NeutralStep) : (s.updNeutral r g).quiet = s.quiet := rfl
@[simp] theorem updNeutral_divider (r : Nat) (g : NeutralStep → NeutralStep) : (s.updNeutral r g).divider = s.divider := rfl
@[simp] theorem updNeutral_timeBase (r : Nat) (g : NeutralStep → NeutralStep) : (s.updNeutral r g).timeBase = s.timeBase := rfl
@[simp] theorem updNeutral_high (r : Nat) (g : NeutralStep → NeutralStep) : (s.updNeutral r g).high = s.high := rfl
@[simp] theorem updNeutral_low (r : Nat) (g : NeutralStep → NeutralStep) : (s.updNeutral r g).low = s.low := rfl
@[simp] theorem updNeutral_retargets (r : Nat) (g : NeutralStep → NeutralStep) : (s.updNeutral r g).retargets = s.retargets := rfl
@[simp] theorem updNeutral_lowSlots (r : Nat) (g : NeutralStep → NeutralStep) : (s.updNeutral r g).lowSlots = s.lowSlots := rfl
@[simp] theorem updNeutral_highSlots (r : Nat) (g : NeutralStep → NeutralStep) : (s.updNeutral r g).highSlots = s.highSlots := rfl
@[simp] theorem updNeutral_mode (r : Nat) (g : NeutralStep → NeutralStep) : (s.updNeutral r g).mode = s.mode := rfl
@[simp] theorem updNeutral_cause (r : Nat) (g : NeutralStep → NeutralStep) : (s.updNeutral r g).cause = s.cause := rfl
@[simp] theorem updNeutral_storm (r : Nat) (g : NeutralStep → NeutralStep) : (s.updNeutral r g).storm = s.storm := rfl
@[simp] theorem updNeutral_lapse (r : Nat) (g : NeutralStep → NeutralStep) : (s.updNeutral r g).lapse = s.lapse := rfl
@[simp] theorem updNeutral_linkU (r : Nat) (g : NeutralStep → NeutralStep) : (s.updNeutral r g).linkU = s.linkU := rfl
@[simp] theorem updNeutral_linkD (r : Nat) (g : NeutralStep → NeutralStep) : (s.updNeutral r g).linkD = s.linkD := rfl
@[simp] theorem updNeutral_queueU (r : Nat) (g : NeutralStep → NeutralStep) : (s.updNeutral r g).queueU = s.queueU := rfl
@[simp] theorem updNeutral_queueD (r : Nat) (g : NeutralStep → NeutralStep) : (s.updNeutral r g).queueD = s.queueD := rfl
@[simp] theorem updNeutral_countersU (r : Nat) (g : NeutralStep → NeutralStep) : (s.updNeutral r g).countersU = s.countersU := rfl
@[simp] theorem updNeutral_countersD (r : Nat) (g : NeutralStep → NeutralStep) : (s.updNeutral r g).countersD = s.countersD := rfl
@[simp] theorem updNeutral_discardedManage (r : Nat) (g : NeutralStep → NeutralStep) : (s.updNeutral r g).discardedManage = s.discardedManage := rfl
@[simp] theorem updNeutral_ownDropped (r : Nat) (g : NeutralStep → NeutralStep) : (s.updNeutral r g).ownDropped = s.ownDropped := rfl
@[simp] theorem updNeutral_counters (r : Nat) (g : NeutralStep → NeutralStep) : (s.updNeutral r g).counters = s.counters := rfl
@[simp] theorem updNeutral_estimateDue (r : Nat) (g : NeutralStep → NeutralStep) : (s.updNeutral r g).estimateDue = s.estimateDue := rfl
@[simp] theorem updNeutral_quietDue (r : Nat) (g : NeutralStep → NeutralStep) : (s.updNeutral r g).quietDue = s.quietDue := rfl
@[simp] theorem updNeutral_lapseDue (r : Nat) (g : NeutralStep → NeutralStep) : (s.updNeutral r g).lapseDue = s.lapseDue := rfl
@[simp] theorem updNeutral_draws (r : Nat) (g : NeutralStep → NeutralStep) : (s.updNeutral r g).draws = s.draws := rfl
@[simp] theorem updNeutral_pending (r : Nat) (g : NeutralStep → NeutralStep) : (s.updNeutral r g).pending = s.pending := rfl

/-! ### place -/

@[simp] theorem place_relayClosed (e : DivEntry) : (s.place e).relayClosed = s.relayClosed := rfl
@[simp] theorem place_stormLine (e : DivEntry) : (s.place e).stormLine = s.stormLine := rfl
@[simp] theorem place_yholdLine (e : DivEntry) : (s.place e).yholdLine = s.yholdLine := rfl
@[simp] theorem place_motion (e : DivEntry) : (s.place e).motion = s.motion := rfl
@[simp] theorem place_nodeAddr (e : DivEntry) : (s.place e).nodeAddr = s.nodeAddr := rfl
@[simp] theorem place_station (e : DivEntry) : (s.place e).station = s.station := rfl
@[simp] theorem place_supervisor (e : DivEntry) : (s.place e).supervisor = s.supervisor := rfl
@[simp] theorem place_params (e : DivEntry) : (s.place e).params = s.params := rfl
@[simp] theorem place_turbines (e : DivEntry) : (s.place e).turbines = s.turbines := rfl
@[simp] theorem place_rows (e : DivEntry) : (s.place e).rows = s.rows := rfl
@[simp] theorem place_sources (e : DivEntry) : (s.place e).sources = s.sources := rfl
@[simp] theorem place_filter (e : DivEntry) : (s.place e).filter = s.filter := rfl
@[simp] theorem place_mark (e : DivEntry) : (s.place e).mark = s.mark := rfl
@[simp] theorem place_sector (e : DivEntry) : (s.place e).sector = s.sector := rfl
@[simp] theorem place_plans (e : DivEntry) : (s.place e).plans = s.plans := rfl
@[simp] theorem place_waves (e : DivEntry) : (s.place e).waves = s.waves := rfl
@[simp] theorem place_waveCounter (e : DivEntry) : (s.place e).waveCounter = s.waveCounter := rfl
@[simp] theorem place_quiet (e : DivEntry) : (s.place e).quiet = s.quiet := rfl
@[simp] theorem place_neutral (e : DivEntry) : (s.place e).neutral = s.neutral := rfl
@[simp] theorem place_timeBase (e : DivEntry) : (s.place e).timeBase = s.timeBase := rfl
@[simp] theorem place_high (e : DivEntry) : (s.place e).high = s.high := rfl
@[simp] theorem place_low (e : DivEntry) : (s.place e).low = s.low := rfl
@[simp] theorem place_retargets (e : DivEntry) : (s.place e).retargets = s.retargets := rfl
@[simp] theorem place_lowSlots (e : DivEntry) : (s.place e).lowSlots = s.lowSlots := rfl
@[simp] theorem place_highSlots (e : DivEntry) : (s.place e).highSlots = s.highSlots := rfl
@[simp] theorem place_mode (e : DivEntry) : (s.place e).mode = s.mode := rfl
@[simp] theorem place_cause (e : DivEntry) : (s.place e).cause = s.cause := rfl
@[simp] theorem place_storm (e : DivEntry) : (s.place e).storm = s.storm := rfl
@[simp] theorem place_lapse (e : DivEntry) : (s.place e).lapse = s.lapse := rfl
@[simp] theorem place_linkU (e : DivEntry) : (s.place e).linkU = s.linkU := rfl
@[simp] theorem place_linkD (e : DivEntry) : (s.place e).linkD = s.linkD := rfl
@[simp] theorem place_queueU (e : DivEntry) : (s.place e).queueU = s.queueU := rfl
@[simp] theorem place_queueD (e : DivEntry) : (s.place e).queueD = s.queueD := rfl
@[simp] theorem place_countersU (e : DivEntry) : (s.place e).countersU = s.countersU := rfl
@[simp] theorem place_countersD (e : DivEntry) : (s.place e).countersD = s.countersD := rfl
@[simp] theorem place_discardedManage (e : DivEntry) : (s.place e).discardedManage = s.discardedManage := rfl
@[simp] theorem place_ownDropped (e : DivEntry) : (s.place e).ownDropped = s.ownDropped := rfl
@[simp] theorem place_counters (e : DivEntry) : (s.place e).counters = s.counters := rfl
@[simp] theorem place_estimateDue (e : DivEntry) : (s.place e).estimateDue = s.estimateDue := rfl
@[simp] theorem place_quietDue (e : DivEntry) : (s.place e).quietDue = s.quietDue := rfl
@[simp] theorem place_lapseDue (e : DivEntry) : (s.place e).lapseDue = s.lapseDue := rfl
@[simp] theorem place_draws (e : DivEntry) : (s.place e).draws = s.draws := rfl
@[simp] theorem place_pending (e : DivEntry) : (s.place e).pending = s.pending := rfl

/-! ### withdraw -/

@[simp] theorem withdraw_relayClosed (q : Requester) : (s.withdraw q).relayClosed = s.relayClosed := rfl
@[simp] theorem withdraw_stormLine (q : Requester) : (s.withdraw q).stormLine = s.stormLine := rfl
@[simp] theorem withdraw_yholdLine (q : Requester) : (s.withdraw q).yholdLine = s.yholdLine := rfl
@[simp] theorem withdraw_motion (q : Requester) : (s.withdraw q).motion = s.motion := rfl
@[simp] theorem withdraw_nodeAddr (q : Requester) : (s.withdraw q).nodeAddr = s.nodeAddr := rfl
@[simp] theorem withdraw_station (q : Requester) : (s.withdraw q).station = s.station := rfl
@[simp] theorem withdraw_supervisor (q : Requester) : (s.withdraw q).supervisor = s.supervisor := rfl
@[simp] theorem withdraw_params (q : Requester) : (s.withdraw q).params = s.params := rfl
@[simp] theorem withdraw_turbines (q : Requester) : (s.withdraw q).turbines = s.turbines := rfl
@[simp] theorem withdraw_rows (q : Requester) : (s.withdraw q).rows = s.rows := rfl
@[simp] theorem withdraw_sources (q : Requester) : (s.withdraw q).sources = s.sources := rfl
@[simp] theorem withdraw_filter (q : Requester) : (s.withdraw q).filter = s.filter := rfl
@[simp] theorem withdraw_mark (q : Requester) : (s.withdraw q).mark = s.mark := rfl
@[simp] theorem withdraw_sector (q : Requester) : (s.withdraw q).sector = s.sector := rfl
@[simp] theorem withdraw_plans (q : Requester) : (s.withdraw q).plans = s.plans := rfl
@[simp] theorem withdraw_waves (q : Requester) : (s.withdraw q).waves = s.waves := rfl
@[simp] theorem withdraw_waveCounter (q : Requester) : (s.withdraw q).waveCounter = s.waveCounter := rfl
@[simp] theorem withdraw_quiet (q : Requester) : (s.withdraw q).quiet = s.quiet := rfl
@[simp] theorem withdraw_neutral (q : Requester) : (s.withdraw q).neutral = s.neutral := rfl
@[simp] theorem withdraw_timeBase (q : Requester) : (s.withdraw q).timeBase = s.timeBase := rfl
@[simp] theorem withdraw_high (q : Requester) : (s.withdraw q).high = s.high := rfl
@[simp] theorem withdraw_low (q : Requester) : (s.withdraw q).low = s.low := rfl
@[simp] theorem withdraw_retargets (q : Requester) : (s.withdraw q).retargets = s.retargets := rfl
@[simp] theorem withdraw_lowSlots (q : Requester) : (s.withdraw q).lowSlots = s.lowSlots := rfl
@[simp] theorem withdraw_highSlots (q : Requester) : (s.withdraw q).highSlots = s.highSlots := rfl
@[simp] theorem withdraw_mode (q : Requester) : (s.withdraw q).mode = s.mode := rfl
@[simp] theorem withdraw_cause (q : Requester) : (s.withdraw q).cause = s.cause := rfl
@[simp] theorem withdraw_storm (q : Requester) : (s.withdraw q).storm = s.storm := rfl
@[simp] theorem withdraw_lapse (q : Requester) : (s.withdraw q).lapse = s.lapse := rfl
@[simp] theorem withdraw_linkU (q : Requester) : (s.withdraw q).linkU = s.linkU := rfl
@[simp] theorem withdraw_linkD (q : Requester) : (s.withdraw q).linkD = s.linkD := rfl
@[simp] theorem withdraw_queueU (q : Requester) : (s.withdraw q).queueU = s.queueU := rfl
@[simp] theorem withdraw_queueD (q : Requester) : (s.withdraw q).queueD = s.queueD := rfl
@[simp] theorem withdraw_countersU (q : Requester) : (s.withdraw q).countersU = s.countersU := rfl
@[simp] theorem withdraw_countersD (q : Requester) : (s.withdraw q).countersD = s.countersD := rfl
@[simp] theorem withdraw_discardedManage (q : Requester) : (s.withdraw q).discardedManage = s.discardedManage := rfl
@[simp] theorem withdraw_ownDropped (q : Requester) : (s.withdraw q).ownDropped = s.ownDropped := rfl
@[simp] theorem withdraw_counters (q : Requester) : (s.withdraw q).counters = s.counters := rfl
@[simp] theorem withdraw_estimateDue (q : Requester) : (s.withdraw q).estimateDue = s.estimateDue := rfl
@[simp] theorem withdraw_quietDue (q : Requester) : (s.withdraw q).quietDue = s.quietDue := rfl
@[simp] theorem withdraw_lapseDue (q : Requester) : (s.withdraw q).lapseDue = s.lapseDue := rfl
@[simp] theorem withdraw_draws (q : Requester) : (s.withdraw q).draws = s.draws := rfl
@[simp] theorem withdraw_pending (q : Requester) : (s.withdraw q).pending = s.pending := rfl

/-! ### takeSlot -/

@[simp] theorem takeSlot_relayClosed (c : SlotClass) : (s.takeSlot c).relayClosed = s.relayClosed := rfl
@[simp] theorem takeSlot_stormLine (c : SlotClass) : (s.takeSlot c).stormLine = s.stormLine := rfl
@[simp] theorem takeSlot_yholdLine (c : SlotClass) : (s.takeSlot c).yholdLine = s.yholdLine := rfl
@[simp] theorem takeSlot_nodeAddr (c : SlotClass) : (s.takeSlot c).nodeAddr = s.nodeAddr := rfl
@[simp] theorem takeSlot_station (c : SlotClass) : (s.takeSlot c).station = s.station := rfl
@[simp] theorem takeSlot_supervisor (c : SlotClass) : (s.takeSlot c).supervisor = s.supervisor := rfl
@[simp] theorem takeSlot_params (c : SlotClass) : (s.takeSlot c).params = s.params := rfl
@[simp] theorem takeSlot_turbines (c : SlotClass) : (s.takeSlot c).turbines = s.turbines := rfl
@[simp] theorem takeSlot_rows (c : SlotClass) : (s.takeSlot c).rows = s.rows := rfl
@[simp] theorem takeSlot_sources (c : SlotClass) : (s.takeSlot c).sources = s.sources := rfl
@[simp] theorem takeSlot_filter (c : SlotClass) : (s.takeSlot c).filter = s.filter := rfl
@[simp] theorem takeSlot_mark (c : SlotClass) : (s.takeSlot c).mark = s.mark := rfl
@[simp] theorem takeSlot_sector (c : SlotClass) : (s.takeSlot c).sector = s.sector := rfl
@[simp] theorem takeSlot_plans (c : SlotClass) : (s.takeSlot c).plans = s.plans := rfl
@[simp] theorem takeSlot_waves (c : SlotClass) : (s.takeSlot c).waves = s.waves := rfl
@[simp] theorem takeSlot_waveCounter (c : SlotClass) : (s.takeSlot c).waveCounter = s.waveCounter := rfl
@[simp] theorem takeSlot_quiet (c : SlotClass) : (s.takeSlot c).quiet = s.quiet := rfl
@[simp] theorem takeSlot_neutral (c : SlotClass) : (s.takeSlot c).neutral = s.neutral := rfl
@[simp] theorem takeSlot_divider (c : SlotClass) : (s.takeSlot c).divider = s.divider := rfl
@[simp] theorem takeSlot_timeBase (c : SlotClass) : (s.takeSlot c).timeBase = s.timeBase := rfl
@[simp] theorem takeSlot_high (c : SlotClass) : (s.takeSlot c).high = s.high := rfl
@[simp] theorem takeSlot_low (c : SlotClass) : (s.takeSlot c).low = s.low := rfl
@[simp] theorem takeSlot_retargets (c : SlotClass) : (s.takeSlot c).retargets = s.retargets := rfl
@[simp] theorem takeSlot_mode (c : SlotClass) : (s.takeSlot c).mode = s.mode := rfl
@[simp] theorem takeSlot_cause (c : SlotClass) : (s.takeSlot c).cause = s.cause := rfl
@[simp] theorem takeSlot_storm (c : SlotClass) : (s.takeSlot c).storm = s.storm := rfl
@[simp] theorem takeSlot_lapse (c : SlotClass) : (s.takeSlot c).lapse = s.lapse := rfl
@[simp] theorem takeSlot_linkU (c : SlotClass) : (s.takeSlot c).linkU = s.linkU := rfl
@[simp] theorem takeSlot_linkD (c : SlotClass) : (s.takeSlot c).linkD = s.linkD := rfl
@[simp] theorem takeSlot_queueU (c : SlotClass) : (s.takeSlot c).queueU = s.queueU := rfl
@[simp] theorem takeSlot_queueD (c : SlotClass) : (s.takeSlot c).queueD = s.queueD := rfl
@[simp] theorem takeSlot_countersU (c : SlotClass) : (s.takeSlot c).countersU = s.countersU := rfl
@[simp] theorem takeSlot_countersD (c : SlotClass) : (s.takeSlot c).countersD = s.countersD := rfl
@[simp] theorem takeSlot_discardedManage (c : SlotClass) : (s.takeSlot c).discardedManage = s.discardedManage := rfl
@[simp] theorem takeSlot_ownDropped (c : SlotClass) : (s.takeSlot c).ownDropped = s.ownDropped := rfl
@[simp] theorem takeSlot_counters (c : SlotClass) : (s.takeSlot c).counters = s.counters := rfl
@[simp] theorem takeSlot_estimateDue (c : SlotClass) : (s.takeSlot c).estimateDue = s.estimateDue := rfl
@[simp] theorem takeSlot_quietDue (c : SlotClass) : (s.takeSlot c).quietDue = s.quietDue := rfl
@[simp] theorem takeSlot_lapseDue (c : SlotClass) : (s.takeSlot c).lapseDue = s.lapseDue := rfl
@[simp] theorem takeSlot_draws (c : SlotClass) : (s.takeSlot c).draws = s.draws := rfl
@[simp] theorem takeSlot_pending (c : SlotClass) : (s.takeSlot c).pending = s.pending := rfl

/-! ### giveSlot -/

@[simp] theorem giveSlot_relayClosed (c : SlotClass) : (s.giveSlot c).relayClosed = s.relayClosed := rfl
@[simp] theorem giveSlot_stormLine (c : SlotClass) : (s.giveSlot c).stormLine = s.stormLine := rfl
@[simp] theorem giveSlot_yholdLine (c : SlotClass) : (s.giveSlot c).yholdLine = s.yholdLine := rfl
@[simp] theorem giveSlot_nodeAddr (c : SlotClass) : (s.giveSlot c).nodeAddr = s.nodeAddr := rfl
@[simp] theorem giveSlot_station (c : SlotClass) : (s.giveSlot c).station = s.station := rfl
@[simp] theorem giveSlot_supervisor (c : SlotClass) : (s.giveSlot c).supervisor = s.supervisor := rfl
@[simp] theorem giveSlot_params (c : SlotClass) : (s.giveSlot c).params = s.params := rfl
@[simp] theorem giveSlot_turbines (c : SlotClass) : (s.giveSlot c).turbines = s.turbines := rfl
@[simp] theorem giveSlot_rows (c : SlotClass) : (s.giveSlot c).rows = s.rows := rfl
@[simp] theorem giveSlot_sources (c : SlotClass) : (s.giveSlot c).sources = s.sources := rfl
@[simp] theorem giveSlot_filter (c : SlotClass) : (s.giveSlot c).filter = s.filter := rfl
@[simp] theorem giveSlot_mark (c : SlotClass) : (s.giveSlot c).mark = s.mark := rfl
@[simp] theorem giveSlot_sector (c : SlotClass) : (s.giveSlot c).sector = s.sector := rfl
@[simp] theorem giveSlot_plans (c : SlotClass) : (s.giveSlot c).plans = s.plans := rfl
@[simp] theorem giveSlot_waves (c : SlotClass) : (s.giveSlot c).waves = s.waves := rfl
@[simp] theorem giveSlot_waveCounter (c : SlotClass) : (s.giveSlot c).waveCounter = s.waveCounter := rfl
@[simp] theorem giveSlot_quiet (c : SlotClass) : (s.giveSlot c).quiet = s.quiet := rfl
@[simp] theorem giveSlot_neutral (c : SlotClass) : (s.giveSlot c).neutral = s.neutral := rfl
@[simp] theorem giveSlot_divider (c : SlotClass) : (s.giveSlot c).divider = s.divider := rfl
@[simp] theorem giveSlot_timeBase (c : SlotClass) : (s.giveSlot c).timeBase = s.timeBase := rfl
@[simp] theorem giveSlot_high (c : SlotClass) : (s.giveSlot c).high = s.high := rfl
@[simp] theorem giveSlot_low (c : SlotClass) : (s.giveSlot c).low = s.low := rfl
@[simp] theorem giveSlot_retargets (c : SlotClass) : (s.giveSlot c).retargets = s.retargets := rfl
@[simp] theorem giveSlot_mode (c : SlotClass) : (s.giveSlot c).mode = s.mode := rfl
@[simp] theorem giveSlot_cause (c : SlotClass) : (s.giveSlot c).cause = s.cause := rfl
@[simp] theorem giveSlot_storm (c : SlotClass) : (s.giveSlot c).storm = s.storm := rfl
@[simp] theorem giveSlot_lapse (c : SlotClass) : (s.giveSlot c).lapse = s.lapse := rfl
@[simp] theorem giveSlot_linkU (c : SlotClass) : (s.giveSlot c).linkU = s.linkU := rfl
@[simp] theorem giveSlot_linkD (c : SlotClass) : (s.giveSlot c).linkD = s.linkD := rfl
@[simp] theorem giveSlot_queueU (c : SlotClass) : (s.giveSlot c).queueU = s.queueU := rfl
@[simp] theorem giveSlot_queueD (c : SlotClass) : (s.giveSlot c).queueD = s.queueD := rfl
@[simp] theorem giveSlot_countersU (c : SlotClass) : (s.giveSlot c).countersU = s.countersU := rfl
@[simp] theorem giveSlot_countersD (c : SlotClass) : (s.giveSlot c).countersD = s.countersD := rfl
@[simp] theorem giveSlot_discardedManage (c : SlotClass) : (s.giveSlot c).discardedManage = s.discardedManage := rfl
@[simp] theorem giveSlot_ownDropped (c : SlotClass) : (s.giveSlot c).ownDropped = s.ownDropped := rfl
@[simp] theorem giveSlot_counters (c : SlotClass) : (s.giveSlot c).counters = s.counters := rfl
@[simp] theorem giveSlot_estimateDue (c : SlotClass) : (s.giveSlot c).estimateDue = s.estimateDue := rfl
@[simp] theorem giveSlot_quietDue (c : SlotClass) : (s.giveSlot c).quietDue = s.quietDue := rfl
@[simp] theorem giveSlot_lapseDue (c : SlotClass) : (s.giveSlot c).lapseDue = s.lapseDue := rfl
@[simp] theorem giveSlot_draws (c : SlotClass) : (s.giveSlot c).draws = s.draws := rfl
@[simp] theorem giveSlot_pending (c : SlotClass) : (s.giveSlot c).pending = s.pending := rfl

/-! ### shiftSlot -/

@[simp] theorem shiftSlot_relayClosed : s.shiftSlot.relayClosed = s.relayClosed := rfl
@[simp] theorem shiftSlot_stormLine : s.shiftSlot.stormLine = s.stormLine := rfl
@[simp] theorem shiftSlot_yholdLine : s.shiftSlot.yholdLine = s.yholdLine := rfl
@[simp] theorem shiftSlot_motion : s.shiftSlot.motion = s.motion := rfl
@[simp] theorem shiftSlot_nodeAddr : s.shiftSlot.nodeAddr = s.nodeAddr := rfl
@[simp] theorem shiftSlot_station : s.shiftSlot.station = s.station := rfl
@[simp] theorem shiftSlot_supervisor : s.shiftSlot.supervisor = s.supervisor := rfl
@[simp] theorem shiftSlot_params : s.shiftSlot.params = s.params := rfl
@[simp] theorem shiftSlot_turbines : s.shiftSlot.turbines = s.turbines := rfl
@[simp] theorem shiftSlot_rows : s.shiftSlot.rows = s.rows := rfl
@[simp] theorem shiftSlot_sources : s.shiftSlot.sources = s.sources := rfl
@[simp] theorem shiftSlot_filter : s.shiftSlot.filter = s.filter := rfl
@[simp] theorem shiftSlot_mark : s.shiftSlot.mark = s.mark := rfl
@[simp] theorem shiftSlot_sector : s.shiftSlot.sector = s.sector := rfl
@[simp] theorem shiftSlot_plans : s.shiftSlot.plans = s.plans := rfl
@[simp] theorem shiftSlot_waves : s.shiftSlot.waves = s.waves := rfl
@[simp] theorem shiftSlot_waveCounter : s.shiftSlot.waveCounter = s.waveCounter := rfl
@[simp] theorem shiftSlot_quiet : s.shiftSlot.quiet = s.quiet := rfl
@[simp] theorem shiftSlot_neutral : s.shiftSlot.neutral = s.neutral := rfl
@[simp] theorem shiftSlot_divider : s.shiftSlot.divider = s.divider := rfl
@[simp] theorem shiftSlot_timeBase : s.shiftSlot.timeBase = s.timeBase := rfl
@[simp] theorem shiftSlot_high : s.shiftSlot.high = s.high := rfl
@[simp] theorem shiftSlot_low : s.shiftSlot.low = s.low := rfl
@[simp] theorem shiftSlot_retargets : s.shiftSlot.retargets = s.retargets := rfl
@[simp] theorem shiftSlot_mode : s.shiftSlot.mode = s.mode := rfl
@[simp] theorem shiftSlot_cause : s.shiftSlot.cause = s.cause := rfl
@[simp] theorem shiftSlot_storm : s.shiftSlot.storm = s.storm := rfl
@[simp] theorem shiftSlot_lapse : s.shiftSlot.lapse = s.lapse := rfl
@[simp] theorem shiftSlot_linkU : s.shiftSlot.linkU = s.linkU := rfl
@[simp] theorem shiftSlot_linkD : s.shiftSlot.linkD = s.linkD := rfl
@[simp] theorem shiftSlot_queueU : s.shiftSlot.queueU = s.queueU := rfl
@[simp] theorem shiftSlot_queueD : s.shiftSlot.queueD = s.queueD := rfl
@[simp] theorem shiftSlot_countersU : s.shiftSlot.countersU = s.countersU := rfl
@[simp] theorem shiftSlot_countersD : s.shiftSlot.countersD = s.countersD := rfl
@[simp] theorem shiftSlot_discardedManage : s.shiftSlot.discardedManage = s.discardedManage := rfl
@[simp] theorem shiftSlot_ownDropped : s.shiftSlot.ownDropped = s.ownDropped := rfl
@[simp] theorem shiftSlot_counters : s.shiftSlot.counters = s.counters := rfl
@[simp] theorem shiftSlot_estimateDue : s.shiftSlot.estimateDue = s.estimateDue := rfl
@[simp] theorem shiftSlot_quietDue : s.shiftSlot.quietDue = s.quietDue := rfl
@[simp] theorem shiftSlot_lapseDue : s.shiftSlot.lapseDue = s.lapseDue := rfl
@[simp] theorem shiftSlot_draws : s.shiftSlot.draws = s.draws := rfl
@[simp] theorem shiftSlot_pending : s.shiftSlot.pending = s.pending := rfl

/-! ### sendU -/

@[simp] theorem sendU_relayClosed (f : EthFrame) : (s.sendU f).relayClosed = s.relayClosed := rfl
@[simp] theorem sendU_stormLine (f : EthFrame) : (s.sendU f).stormLine = s.stormLine := rfl
@[simp] theorem sendU_yholdLine (f : EthFrame) : (s.sendU f).yholdLine = s.yholdLine := rfl
@[simp] theorem sendU_motion (f : EthFrame) : (s.sendU f).motion = s.motion := rfl
@[simp] theorem sendU_nodeAddr (f : EthFrame) : (s.sendU f).nodeAddr = s.nodeAddr := rfl
@[simp] theorem sendU_station (f : EthFrame) : (s.sendU f).station = s.station := rfl
@[simp] theorem sendU_supervisor (f : EthFrame) : (s.sendU f).supervisor = s.supervisor := rfl
@[simp] theorem sendU_params (f : EthFrame) : (s.sendU f).params = s.params := rfl
@[simp] theorem sendU_turbines (f : EthFrame) : (s.sendU f).turbines = s.turbines := rfl
@[simp] theorem sendU_rows (f : EthFrame) : (s.sendU f).rows = s.rows := rfl
@[simp] theorem sendU_sources (f : EthFrame) : (s.sendU f).sources = s.sources := rfl
@[simp] theorem sendU_filter (f : EthFrame) : (s.sendU f).filter = s.filter := rfl
@[simp] theorem sendU_mark (f : EthFrame) : (s.sendU f).mark = s.mark := rfl
@[simp] theorem sendU_sector (f : EthFrame) : (s.sendU f).sector = s.sector := rfl
@[simp] theorem sendU_plans (f : EthFrame) : (s.sendU f).plans = s.plans := rfl
@[simp] theorem sendU_waves (f : EthFrame) : (s.sendU f).waves = s.waves := rfl
@[simp] theorem sendU_waveCounter (f : EthFrame) : (s.sendU f).waveCounter = s.waveCounter := rfl
@[simp] theorem sendU_quiet (f : EthFrame) : (s.sendU f).quiet = s.quiet := rfl
@[simp] theorem sendU_neutral (f : EthFrame) : (s.sendU f).neutral = s.neutral := rfl
@[simp] theorem sendU_divider (f : EthFrame) : (s.sendU f).divider = s.divider := rfl
@[simp] theorem sendU_timeBase (f : EthFrame) : (s.sendU f).timeBase = s.timeBase := rfl
@[simp] theorem sendU_high (f : EthFrame) : (s.sendU f).high = s.high := rfl
@[simp] theorem sendU_low (f : EthFrame) : (s.sendU f).low = s.low := rfl
@[simp] theorem sendU_retargets (f : EthFrame) : (s.sendU f).retargets = s.retargets := rfl
@[simp] theorem sendU_lowSlots (f : EthFrame) : (s.sendU f).lowSlots = s.lowSlots := rfl
@[simp] theorem sendU_highSlots (f : EthFrame) : (s.sendU f).highSlots = s.highSlots := rfl
@[simp] theorem sendU_mode (f : EthFrame) : (s.sendU f).mode = s.mode := rfl
@[simp] theorem sendU_cause (f : EthFrame) : (s.sendU f).cause = s.cause := rfl
@[simp] theorem sendU_storm (f : EthFrame) : (s.sendU f).storm = s.storm := rfl
@[simp] theorem sendU_lapse (f : EthFrame) : (s.sendU f).lapse = s.lapse := rfl
@[simp] theorem sendU_linkU (f : EthFrame) : (s.sendU f).linkU = s.linkU := rfl
@[simp] theorem sendU_linkD (f : EthFrame) : (s.sendU f).linkD = s.linkD := rfl
@[simp] theorem sendU_queueD (f : EthFrame) : (s.sendU f).queueD = s.queueD := rfl
@[simp] theorem sendU_countersU (f : EthFrame) : (s.sendU f).countersU = s.countersU := rfl
@[simp] theorem sendU_countersD (f : EthFrame) : (s.sendU f).countersD = s.countersD := rfl
@[simp] theorem sendU_discardedManage (f : EthFrame) : (s.sendU f).discardedManage = s.discardedManage := rfl
@[simp] theorem sendU_counters (f : EthFrame) : (s.sendU f).counters = s.counters := rfl
@[simp] theorem sendU_estimateDue (f : EthFrame) : (s.sendU f).estimateDue = s.estimateDue := rfl
@[simp] theorem sendU_quietDue (f : EthFrame) : (s.sendU f).quietDue = s.quietDue := rfl
@[simp] theorem sendU_lapseDue (f : EthFrame) : (s.sendU f).lapseDue = s.lapseDue := rfl
@[simp] theorem sendU_draws (f : EthFrame) : (s.sendU f).draws = s.draws := rfl
@[simp] theorem sendU_pending (f : EthFrame) : (s.sendU f).pending = s.pending := rfl

/-! ### sendD -/

@[simp] theorem sendD_relayClosed (f : EthFrame) : (s.sendD f).relayClosed = s.relayClosed := rfl
@[simp] theorem sendD_stormLine (f : EthFrame) : (s.sendD f).stormLine = s.stormLine := rfl
@[simp] theorem sendD_yholdLine (f : EthFrame) : (s.sendD f).yholdLine = s.yholdLine := rfl
@[simp] theorem sendD_motion (f : EthFrame) : (s.sendD f).motion = s.motion := rfl
@[simp] theorem sendD_nodeAddr (f : EthFrame) : (s.sendD f).nodeAddr = s.nodeAddr := rfl
@[simp] theorem sendD_station (f : EthFrame) : (s.sendD f).station = s.station := rfl
@[simp] theorem sendD_supervisor (f : EthFrame) : (s.sendD f).supervisor = s.supervisor := rfl
@[simp] theorem sendD_params (f : EthFrame) : (s.sendD f).params = s.params := rfl
@[simp] theorem sendD_turbines (f : EthFrame) : (s.sendD f).turbines = s.turbines := rfl
@[simp] theorem sendD_rows (f : EthFrame) : (s.sendD f).rows = s.rows := rfl
@[simp] theorem sendD_sources (f : EthFrame) : (s.sendD f).sources = s.sources := rfl
@[simp] theorem sendD_filter (f : EthFrame) : (s.sendD f).filter = s.filter := rfl
@[simp] theorem sendD_mark (f : EthFrame) : (s.sendD f).mark = s.mark := rfl
@[simp] theorem sendD_sector (f : EthFrame) : (s.sendD f).sector = s.sector := rfl
@[simp] theorem sendD_plans (f : EthFrame) : (s.sendD f).plans = s.plans := rfl
@[simp] theorem sendD_waves (f : EthFrame) : (s.sendD f).waves = s.waves := rfl
@[simp] theorem sendD_waveCounter (f : EthFrame) : (s.sendD f).waveCounter = s.waveCounter := rfl
@[simp] theorem sendD_quiet (f : EthFrame) : (s.sendD f).quiet = s.quiet := rfl
@[simp] theorem sendD_neutral (f : EthFrame) : (s.sendD f).neutral = s.neutral := rfl
@[simp] theorem sendD_divider (f : EthFrame) : (s.sendD f).divider = s.divider := rfl
@[simp] theorem sendD_timeBase (f : EthFrame) : (s.sendD f).timeBase = s.timeBase := rfl
@[simp] theorem sendD_high (f : EthFrame) : (s.sendD f).high = s.high := rfl
@[simp] theorem sendD_low (f : EthFrame) : (s.sendD f).low = s.low := rfl
@[simp] theorem sendD_retargets (f : EthFrame) : (s.sendD f).retargets = s.retargets := rfl
@[simp] theorem sendD_lowSlots (f : EthFrame) : (s.sendD f).lowSlots = s.lowSlots := rfl
@[simp] theorem sendD_highSlots (f : EthFrame) : (s.sendD f).highSlots = s.highSlots := rfl
@[simp] theorem sendD_mode (f : EthFrame) : (s.sendD f).mode = s.mode := rfl
@[simp] theorem sendD_cause (f : EthFrame) : (s.sendD f).cause = s.cause := rfl
@[simp] theorem sendD_storm (f : EthFrame) : (s.sendD f).storm = s.storm := rfl
@[simp] theorem sendD_lapse (f : EthFrame) : (s.sendD f).lapse = s.lapse := rfl
@[simp] theorem sendD_linkU (f : EthFrame) : (s.sendD f).linkU = s.linkU := rfl
@[simp] theorem sendD_linkD (f : EthFrame) : (s.sendD f).linkD = s.linkD := rfl
@[simp] theorem sendD_queueU (f : EthFrame) : (s.sendD f).queueU = s.queueU := rfl
@[simp] theorem sendD_countersU (f : EthFrame) : (s.sendD f).countersU = s.countersU := rfl
@[simp] theorem sendD_countersD (f : EthFrame) : (s.sendD f).countersD = s.countersD := rfl
@[simp] theorem sendD_discardedManage (f : EthFrame) : (s.sendD f).discardedManage = s.discardedManage := rfl
@[simp] theorem sendD_ownDropped (f : EthFrame) : (s.sendD f).ownDropped = s.ownDropped := rfl
@[simp] theorem sendD_counters (f : EthFrame) : (s.sendD f).counters = s.counters := rfl
@[simp] theorem sendD_estimateDue (f : EthFrame) : (s.sendD f).estimateDue = s.estimateDue := rfl
@[simp] theorem sendD_quietDue (f : EthFrame) : (s.sendD f).quietDue = s.quietDue := rfl
@[simp] theorem sendD_lapseDue (f : EthFrame) : (s.sendD f).lapseDue = s.lapseDue := rfl
@[simp] theorem sendD_draws (f : EthFrame) : (s.sendD f).draws = s.draws := rfl
@[simp] theorem sendD_pending (f : EthFrame) : (s.sendD f).pending = s.pending := rfl

/-! ### notify -/

@[simp] theorem notify_relayClosed (n : Notice) : (s.notify n).relayClosed = s.relayClosed := rfl
@[simp] theorem notify_stormLine (n : Notice) : (s.notify n).stormLine = s.stormLine := rfl
@[simp] theorem notify_yholdLine (n : Notice) : (s.notify n).yholdLine = s.yholdLine := rfl
@[simp] theorem notify_motion (n : Notice) : (s.notify n).motion = s.motion := rfl
@[simp] theorem notify_nodeAddr (n : Notice) : (s.notify n).nodeAddr = s.nodeAddr := rfl
@[simp] theorem notify_station (n : Notice) : (s.notify n).station = s.station := rfl
@[simp] theorem notify_supervisor (n : Notice) : (s.notify n).supervisor = s.supervisor := rfl
@[simp] theorem notify_params (n : Notice) : (s.notify n).params = s.params := rfl
@[simp] theorem notify_turbines (n : Notice) : (s.notify n).turbines = s.turbines := rfl
@[simp] theorem notify_rows (n : Notice) : (s.notify n).rows = s.rows := rfl
@[simp] theorem notify_sources (n : Notice) : (s.notify n).sources = s.sources := rfl
@[simp] theorem notify_filter (n : Notice) : (s.notify n).filter = s.filter := rfl
@[simp] theorem notify_mark (n : Notice) : (s.notify n).mark = s.mark := rfl
@[simp] theorem notify_sector (n : Notice) : (s.notify n).sector = s.sector := rfl
@[simp] theorem notify_plans (n : Notice) : (s.notify n).plans = s.plans := rfl
@[simp] theorem notify_waves (n : Notice) : (s.notify n).waves = s.waves := rfl
@[simp] theorem notify_waveCounter (n : Notice) : (s.notify n).waveCounter = s.waveCounter := rfl
@[simp] theorem notify_quiet (n : Notice) : (s.notify n).quiet = s.quiet := rfl
@[simp] theorem notify_neutral (n : Notice) : (s.notify n).neutral = s.neutral := rfl
@[simp] theorem notify_divider (n : Notice) : (s.notify n).divider = s.divider := rfl
@[simp] theorem notify_timeBase (n : Notice) : (s.notify n).timeBase = s.timeBase := rfl
@[simp] theorem notify_high (n : Notice) : (s.notify n).high = s.high := rfl
@[simp] theorem notify_low (n : Notice) : (s.notify n).low = s.low := rfl
@[simp] theorem notify_retargets (n : Notice) : (s.notify n).retargets = s.retargets := rfl
@[simp] theorem notify_lowSlots (n : Notice) : (s.notify n).lowSlots = s.lowSlots := rfl
@[simp] theorem notify_highSlots (n : Notice) : (s.notify n).highSlots = s.highSlots := rfl
@[simp] theorem notify_mode (n : Notice) : (s.notify n).mode = s.mode := rfl
@[simp] theorem notify_cause (n : Notice) : (s.notify n).cause = s.cause := rfl
@[simp] theorem notify_storm (n : Notice) : (s.notify n).storm = s.storm := rfl
@[simp] theorem notify_lapse (n : Notice) : (s.notify n).lapse = s.lapse := rfl
@[simp] theorem notify_linkU (n : Notice) : (s.notify n).linkU = s.linkU := rfl
@[simp] theorem notify_linkD (n : Notice) : (s.notify n).linkD = s.linkD := rfl
@[simp] theorem notify_queueD (n : Notice) : (s.notify n).queueD = s.queueD := rfl
@[simp] theorem notify_countersU (n : Notice) : (s.notify n).countersU = s.countersU := rfl
@[simp] theorem notify_countersD (n : Notice) : (s.notify n).countersD = s.countersD := rfl
@[simp] theorem notify_discardedManage (n : Notice) : (s.notify n).discardedManage = s.discardedManage := rfl
@[simp] theorem notify_counters (n : Notice) : (s.notify n).counters = s.counters := rfl
@[simp] theorem notify_estimateDue (n : Notice) : (s.notify n).estimateDue = s.estimateDue := rfl
@[simp] theorem notify_quietDue (n : Notice) : (s.notify n).quietDue = s.quietDue := rfl
@[simp] theorem notify_lapseDue (n : Notice) : (s.notify n).lapseDue = s.lapseDue := rfl
@[simp] theorem notify_draws (n : Notice) : (s.notify n).draws = s.draws := rfl
@[simp] theorem notify_pending (n : Notice) : (s.notify n).pending = s.pending := rfl

/-! ### reply -/

@[simp] theorem reply_relayClosed (e : Env) (c : Byte) (r : Result) (l : List Byte) : (s.reply e c r l).relayClosed = s.relayClosed := rfl
@[simp] theorem reply_stormLine (e : Env) (c : Byte) (r : Result) (l : List Byte) : (s.reply e c r l).stormLine = s.stormLine := rfl
@[simp] theorem reply_yholdLine (e : Env) (c : Byte) (r : Result) (l : List Byte) : (s.reply e c r l).yholdLine = s.yholdLine := rfl
@[simp] theorem reply_motion (e : Env) (c : Byte) (r : Result) (l : List Byte) : (s.reply e c r l).motion = s.motion := rfl
@[simp] theorem reply_nodeAddr (e : Env) (c : Byte) (r : Result) (l : List Byte) : (s.reply e c r l).nodeAddr = s.nodeAddr := rfl
@[simp] theorem reply_station (e : Env) (c : Byte) (r : Result) (l : List Byte) : (s.reply e c r l).station = s.station := rfl
@[simp] theorem reply_supervisor (e : Env) (c : Byte) (r : Result) (l : List Byte) : (s.reply e c r l).supervisor = s.supervisor := rfl
@[simp] theorem reply_params (e : Env) (c : Byte) (r : Result) (l : List Byte) : (s.reply e c r l).params = s.params := rfl
@[simp] theorem reply_turbines (e : Env) (c : Byte) (r : Result) (l : List Byte) : (s.reply e c r l).turbines = s.turbines := rfl
@[simp] theorem reply_rows (e : Env) (c : Byte) (r : Result) (l : List Byte) : (s.reply e c r l).rows = s.rows := rfl
@[simp] theorem reply_sources (e : Env) (c : Byte) (r : Result) (l : List Byte) : (s.reply e c r l).sources = s.sources := rfl
@[simp] theorem reply_filter (e : Env) (c : Byte) (r : Result) (l : List Byte) : (s.reply e c r l).filter = s.filter := rfl
@[simp] theorem reply_mark (e : Env) (c : Byte) (r : Result) (l : List Byte) : (s.reply e c r l).mark = s.mark := rfl
@[simp] theorem reply_sector (e : Env) (c : Byte) (r : Result) (l : List Byte) : (s.reply e c r l).sector = s.sector := rfl
@[simp] theorem reply_plans (e : Env) (c : Byte) (r : Result) (l : List Byte) : (s.reply e c r l).plans = s.plans := rfl
@[simp] theorem reply_waves (e : Env) (c : Byte) (r : Result) (l : List Byte) : (s.reply e c r l).waves = s.waves := rfl
@[simp] theorem reply_waveCounter (e : Env) (c : Byte) (r : Result) (l : List Byte) : (s.reply e c r l).waveCounter = s.waveCounter := rfl
@[simp] theorem reply_quiet (e : Env) (c : Byte) (r : Result) (l : List Byte) : (s.reply e c r l).quiet = s.quiet := rfl
@[simp] theorem reply_neutral (e : Env) (c : Byte) (r : Result) (l : List Byte) : (s.reply e c r l).neutral = s.neutral := rfl
@[simp] theorem reply_divider (e : Env) (c : Byte) (r : Result) (l : List Byte) : (s.reply e c r l).divider = s.divider := rfl
@[simp] theorem reply_timeBase (e : Env) (c : Byte) (r : Result) (l : List Byte) : (s.reply e c r l).timeBase = s.timeBase := rfl
@[simp] theorem reply_high (e : Env) (c : Byte) (r : Result) (l : List Byte) : (s.reply e c r l).high = s.high := rfl
@[simp] theorem reply_low (e : Env) (c : Byte) (r : Result) (l : List Byte) : (s.reply e c r l).low = s.low := rfl
@[simp] theorem reply_retargets (e : Env) (c : Byte) (r : Result) (l : List Byte) : (s.reply e c r l).retargets = s.retargets := rfl
@[simp] theorem reply_lowSlots (e : Env) (c : Byte) (r : Result) (l : List Byte) : (s.reply e c r l).lowSlots = s.lowSlots := rfl
@[simp] theorem reply_highSlots (e : Env) (c : Byte) (r : Result) (l : List Byte) : (s.reply e c r l).highSlots = s.highSlots := rfl
@[simp] theorem reply_mode (e : Env) (c : Byte) (r : Result) (l : List Byte) : (s.reply e c r l).mode = s.mode := rfl
@[simp] theorem reply_cause (e : Env) (c : Byte) (r : Result) (l : List Byte) : (s.reply e c r l).cause = s.cause := rfl
@[simp] theorem reply_storm (e : Env) (c : Byte) (r : Result) (l : List Byte) : (s.reply e c r l).storm = s.storm := rfl
@[simp] theorem reply_lapse (e : Env) (c : Byte) (r : Result) (l : List Byte) : (s.reply e c r l).lapse = s.lapse := rfl
@[simp] theorem reply_linkU (e : Env) (c : Byte) (r : Result) (l : List Byte) : (s.reply e c r l).linkU = s.linkU := rfl
@[simp] theorem reply_linkD (e : Env) (c : Byte) (r : Result) (l : List Byte) : (s.reply e c r l).linkD = s.linkD := rfl
@[simp] theorem reply_queueD (e : Env) (c : Byte) (r : Result) (l : List Byte) : (s.reply e c r l).queueD = s.queueD := rfl
@[simp] theorem reply_countersU (e : Env) (c : Byte) (r : Result) (l : List Byte) : (s.reply e c r l).countersU = s.countersU := rfl
@[simp] theorem reply_countersD (e : Env) (c : Byte) (r : Result) (l : List Byte) : (s.reply e c r l).countersD = s.countersD := rfl
@[simp] theorem reply_discardedManage (e : Env) (c : Byte) (r : Result) (l : List Byte) : (s.reply e c r l).discardedManage = s.discardedManage := rfl
@[simp] theorem reply_counters (e : Env) (c : Byte) (r : Result) (l : List Byte) : (s.reply e c r l).counters = s.counters := rfl
@[simp] theorem reply_estimateDue (e : Env) (c : Byte) (r : Result) (l : List Byte) : (s.reply e c r l).estimateDue = s.estimateDue := rfl
@[simp] theorem reply_quietDue (e : Env) (c : Byte) (r : Result) (l : List Byte) : (s.reply e c r l).quietDue = s.quietDue := rfl
@[simp] theorem reply_lapseDue (e : Env) (c : Byte) (r : Result) (l : List Byte) : (s.reply e c r l).lapseDue = s.lapseDue := rfl
@[simp] theorem reply_draws (e : Env) (c : Byte) (r : Result) (l : List Byte) : (s.reply e c r l).draws = s.draws := rfl
@[simp] theorem reply_pending (e : Env) (c : Byte) (r : Result) (l : List Byte) : (s.reply e c r l).pending = s.pending := rfl

/-! ### tally -/

@[simp] theorem tally_relayClosed (g : Counters → Counters) : (s.tally g).relayClosed = s.relayClosed := rfl
@[simp] theorem tally_stormLine (g : Counters → Counters) : (s.tally g).stormLine = s.stormLine := rfl
@[simp] theorem tally_yholdLine (g : Counters → Counters) : (s.tally g).yholdLine = s.yholdLine := rfl
@[simp] theorem tally_motion (g : Counters → Counters) : (s.tally g).motion = s.motion := rfl
@[simp] theorem tally_nodeAddr (g : Counters → Counters) : (s.tally g).nodeAddr = s.nodeAddr := rfl
@[simp] theorem tally_station (g : Counters → Counters) : (s.tally g).station = s.station := rfl
@[simp] theorem tally_supervisor (g : Counters → Counters) : (s.tally g).supervisor = s.supervisor := rfl
@[simp] theorem tally_params (g : Counters → Counters) : (s.tally g).params = s.params := rfl
@[simp] theorem tally_turbines (g : Counters → Counters) : (s.tally g).turbines = s.turbines := rfl
@[simp] theorem tally_rows (g : Counters → Counters) : (s.tally g).rows = s.rows := rfl
@[simp] theorem tally_sources (g : Counters → Counters) : (s.tally g).sources = s.sources := rfl
@[simp] theorem tally_filter (g : Counters → Counters) : (s.tally g).filter = s.filter := rfl
@[simp] theorem tally_mark (g : Counters → Counters) : (s.tally g).mark = s.mark := rfl
@[simp] theorem tally_sector (g : Counters → Counters) : (s.tally g).sector = s.sector := rfl
@[simp] theorem tally_plans (g : Counters → Counters) : (s.tally g).plans = s.plans := rfl
@[simp] theorem tally_waves (g : Counters → Counters) : (s.tally g).waves = s.waves := rfl
@[simp] theorem tally_waveCounter (g : Counters → Counters) : (s.tally g).waveCounter = s.waveCounter := rfl
@[simp] theorem tally_quiet (g : Counters → Counters) : (s.tally g).quiet = s.quiet := rfl
@[simp] theorem tally_neutral (g : Counters → Counters) : (s.tally g).neutral = s.neutral := rfl
@[simp] theorem tally_divider (g : Counters → Counters) : (s.tally g).divider = s.divider := rfl
@[simp] theorem tally_timeBase (g : Counters → Counters) : (s.tally g).timeBase = s.timeBase := rfl
@[simp] theorem tally_high (g : Counters → Counters) : (s.tally g).high = s.high := rfl
@[simp] theorem tally_low (g : Counters → Counters) : (s.tally g).low = s.low := rfl
@[simp] theorem tally_retargets (g : Counters → Counters) : (s.tally g).retargets = s.retargets := rfl
@[simp] theorem tally_lowSlots (g : Counters → Counters) : (s.tally g).lowSlots = s.lowSlots := rfl
@[simp] theorem tally_highSlots (g : Counters → Counters) : (s.tally g).highSlots = s.highSlots := rfl
@[simp] theorem tally_mode (g : Counters → Counters) : (s.tally g).mode = s.mode := rfl
@[simp] theorem tally_cause (g : Counters → Counters) : (s.tally g).cause = s.cause := rfl
@[simp] theorem tally_storm (g : Counters → Counters) : (s.tally g).storm = s.storm := rfl
@[simp] theorem tally_lapse (g : Counters → Counters) : (s.tally g).lapse = s.lapse := rfl
@[simp] theorem tally_linkU (g : Counters → Counters) : (s.tally g).linkU = s.linkU := rfl
@[simp] theorem tally_linkD (g : Counters → Counters) : (s.tally g).linkD = s.linkD := rfl
@[simp] theorem tally_queueU (g : Counters → Counters) : (s.tally g).queueU = s.queueU := rfl
@[simp] theorem tally_queueD (g : Counters → Counters) : (s.tally g).queueD = s.queueD := rfl
@[simp] theorem tally_countersU (g : Counters → Counters) : (s.tally g).countersU = s.countersU := rfl
@[simp] theorem tally_countersD (g : Counters → Counters) : (s.tally g).countersD = s.countersD := rfl
@[simp] theorem tally_discardedManage (g : Counters → Counters) : (s.tally g).discardedManage = s.discardedManage := rfl
@[simp] theorem tally_ownDropped (g : Counters → Counters) : (s.tally g).ownDropped = s.ownDropped := rfl
@[simp] theorem tally_estimateDue (g : Counters → Counters) : (s.tally g).estimateDue = s.estimateDue := rfl
@[simp] theorem tally_quietDue (g : Counters → Counters) : (s.tally g).quietDue = s.quietDue := rfl
@[simp] theorem tally_lapseDue (g : Counters → Counters) : (s.tally g).lapseDue = s.lapseDue := rfl
@[simp] theorem tally_draws (g : Counters → Counters) : (s.tally g).draws = s.draws := rfl
@[simp] theorem tally_pending (g : Counters → Counters) : (s.tally g).pending = s.pending := rfl

/-! ### setMode -/

@[simp] theorem setMode_relayClosed (m : Mode) (c : ModeCause) : (s.setMode m c).relayClosed = s.relayClosed := rfl
@[simp] theorem setMode_stormLine (m : Mode) (c : ModeCause) : (s.setMode m c).stormLine = s.stormLine := rfl
@[simp] theorem setMode_yholdLine (m : Mode) (c : ModeCause) : (s.setMode m c).yholdLine = s.yholdLine := rfl
@[simp] theorem setMode_motion (m : Mode) (c : ModeCause) : (s.setMode m c).motion = s.motion := rfl
@[simp] theorem setMode_nodeAddr (m : Mode) (c : ModeCause) : (s.setMode m c).nodeAddr = s.nodeAddr := rfl
@[simp] theorem setMode_station (m : Mode) (c : ModeCause) : (s.setMode m c).station = s.station := rfl
@[simp] theorem setMode_supervisor (m : Mode) (c : ModeCause) : (s.setMode m c).supervisor = s.supervisor := rfl
@[simp] theorem setMode_params (m : Mode) (c : ModeCause) : (s.setMode m c).params = s.params := rfl
@[simp] theorem setMode_turbines (m : Mode) (c : ModeCause) : (s.setMode m c).turbines = s.turbines := rfl
@[simp] theorem setMode_rows (m : Mode) (c : ModeCause) : (s.setMode m c).rows = s.rows := rfl
@[simp] theorem setMode_sources (m : Mode) (c : ModeCause) : (s.setMode m c).sources = s.sources := rfl
@[simp] theorem setMode_filter (m : Mode) (c : ModeCause) : (s.setMode m c).filter = s.filter := rfl
@[simp] theorem setMode_mark (m : Mode) (c : ModeCause) : (s.setMode m c).mark = s.mark := rfl
@[simp] theorem setMode_sector (m : Mode) (c : ModeCause) : (s.setMode m c).sector = s.sector := rfl
@[simp] theorem setMode_plans (m : Mode) (c : ModeCause) : (s.setMode m c).plans = s.plans := rfl
@[simp] theorem setMode_waves (m : Mode) (c : ModeCause) : (s.setMode m c).waves = s.waves := rfl
@[simp] theorem setMode_waveCounter (m : Mode) (c : ModeCause) : (s.setMode m c).waveCounter = s.waveCounter := rfl
@[simp] theorem setMode_quiet (m : Mode) (c : ModeCause) : (s.setMode m c).quiet = s.quiet := rfl
@[simp] theorem setMode_neutral (m : Mode) (c : ModeCause) : (s.setMode m c).neutral = s.neutral := rfl
@[simp] theorem setMode_divider (m : Mode) (c : ModeCause) : (s.setMode m c).divider = s.divider := rfl
@[simp] theorem setMode_timeBase (m : Mode) (c : ModeCause) : (s.setMode m c).timeBase = s.timeBase := rfl
@[simp] theorem setMode_high (m : Mode) (c : ModeCause) : (s.setMode m c).high = s.high := rfl
@[simp] theorem setMode_low (m : Mode) (c : ModeCause) : (s.setMode m c).low = s.low := rfl
@[simp] theorem setMode_retargets (m : Mode) (c : ModeCause) : (s.setMode m c).retargets = s.retargets := rfl
@[simp] theorem setMode_lowSlots (m : Mode) (c : ModeCause) : (s.setMode m c).lowSlots = s.lowSlots := rfl
@[simp] theorem setMode_highSlots (m : Mode) (c : ModeCause) : (s.setMode m c).highSlots = s.highSlots := rfl
@[simp] theorem setMode_storm (m : Mode) (c : ModeCause) : (s.setMode m c).storm = s.storm := rfl
@[simp] theorem setMode_lapse (m : Mode) (c : ModeCause) : (s.setMode m c).lapse = s.lapse := rfl
@[simp] theorem setMode_linkU (m : Mode) (c : ModeCause) : (s.setMode m c).linkU = s.linkU := rfl
@[simp] theorem setMode_linkD (m : Mode) (c : ModeCause) : (s.setMode m c).linkD = s.linkD := rfl
@[simp] theorem setMode_queueU (m : Mode) (c : ModeCause) : (s.setMode m c).queueU = s.queueU := rfl
@[simp] theorem setMode_queueD (m : Mode) (c : ModeCause) : (s.setMode m c).queueD = s.queueD := rfl
@[simp] theorem setMode_countersU (m : Mode) (c : ModeCause) : (s.setMode m c).countersU = s.countersU := rfl
@[simp] theorem setMode_countersD (m : Mode) (c : ModeCause) : (s.setMode m c).countersD = s.countersD := rfl
@[simp] theorem setMode_discardedManage (m : Mode) (c : ModeCause) : (s.setMode m c).discardedManage = s.discardedManage := rfl
@[simp] theorem setMode_ownDropped (m : Mode) (c : ModeCause) : (s.setMode m c).ownDropped = s.ownDropped := rfl
@[simp] theorem setMode_counters (m : Mode) (c : ModeCause) : (s.setMode m c).counters = s.counters := rfl
@[simp] theorem setMode_estimateDue (m : Mode) (c : ModeCause) : (s.setMode m c).estimateDue = s.estimateDue := rfl
@[simp] theorem setMode_quietDue (m : Mode) (c : ModeCause) : (s.setMode m c).quietDue = s.quietDue := rfl
@[simp] theorem setMode_lapseDue (m : Mode) (c : ModeCause) : (s.setMode m c).lapseDue = s.lapseDue := rfl
@[simp] theorem setMode_draws (m : Mode) (c : ModeCause) : (s.setMode m c).draws = s.draws := rfl
@[simp] theorem setMode_pending (m : Mode) (c : ModeCause) : (s.setMode m c).pending = s.pending := rfl

/-! ### notifyMode -/

@[simp] theorem notifyMode_relayClosed : s.notifyMode.relayClosed = s.relayClosed := rfl
@[simp] theorem notifyMode_stormLine : s.notifyMode.stormLine = s.stormLine := rfl
@[simp] theorem notifyMode_yholdLine : s.notifyMode.yholdLine = s.yholdLine := rfl
@[simp] theorem notifyMode_motion : s.notifyMode.motion = s.motion := rfl
@[simp] theorem notifyMode_nodeAddr : s.notifyMode.nodeAddr = s.nodeAddr := rfl
@[simp] theorem notifyMode_station : s.notifyMode.station = s.station := rfl
@[simp] theorem notifyMode_supervisor : s.notifyMode.supervisor = s.supervisor := rfl
@[simp] theorem notifyMode_params : s.notifyMode.params = s.params := rfl
@[simp] theorem notifyMode_turbines : s.notifyMode.turbines = s.turbines := rfl
@[simp] theorem notifyMode_rows : s.notifyMode.rows = s.rows := rfl
@[simp] theorem notifyMode_sources : s.notifyMode.sources = s.sources := rfl
@[simp] theorem notifyMode_filter : s.notifyMode.filter = s.filter := rfl
@[simp] theorem notifyMode_mark : s.notifyMode.mark = s.mark := rfl
@[simp] theorem notifyMode_sector : s.notifyMode.sector = s.sector := rfl
@[simp] theorem notifyMode_plans : s.notifyMode.plans = s.plans := rfl
@[simp] theorem notifyMode_waves : s.notifyMode.waves = s.waves := rfl
@[simp] theorem notifyMode_waveCounter : s.notifyMode.waveCounter = s.waveCounter := rfl
@[simp] theorem notifyMode_quiet : s.notifyMode.quiet = s.quiet := rfl
@[simp] theorem notifyMode_neutral : s.notifyMode.neutral = s.neutral := rfl
@[simp] theorem notifyMode_divider : s.notifyMode.divider = s.divider := rfl
@[simp] theorem notifyMode_timeBase : s.notifyMode.timeBase = s.timeBase := rfl
@[simp] theorem notifyMode_high : s.notifyMode.high = s.high := rfl
@[simp] theorem notifyMode_low : s.notifyMode.low = s.low := rfl
@[simp] theorem notifyMode_retargets : s.notifyMode.retargets = s.retargets := rfl
@[simp] theorem notifyMode_lowSlots : s.notifyMode.lowSlots = s.lowSlots := rfl
@[simp] theorem notifyMode_highSlots : s.notifyMode.highSlots = s.highSlots := rfl
@[simp] theorem notifyMode_mode : s.notifyMode.mode = s.mode := rfl
@[simp] theorem notifyMode_cause : s.notifyMode.cause = s.cause := rfl
@[simp] theorem notifyMode_storm : s.notifyMode.storm = s.storm := rfl
@[simp] theorem notifyMode_lapse : s.notifyMode.lapse = s.lapse := rfl
@[simp] theorem notifyMode_linkU : s.notifyMode.linkU = s.linkU := rfl
@[simp] theorem notifyMode_linkD : s.notifyMode.linkD = s.linkD := rfl
@[simp] theorem notifyMode_queueD : s.notifyMode.queueD = s.queueD := rfl
@[simp] theorem notifyMode_countersU : s.notifyMode.countersU = s.countersU := rfl
@[simp] theorem notifyMode_countersD : s.notifyMode.countersD = s.countersD := rfl
@[simp] theorem notifyMode_discardedManage : s.notifyMode.discardedManage = s.discardedManage := rfl
@[simp] theorem notifyMode_counters : s.notifyMode.counters = s.counters := rfl
@[simp] theorem notifyMode_estimateDue : s.notifyMode.estimateDue = s.estimateDue := rfl
@[simp] theorem notifyMode_quietDue : s.notifyMode.quietDue = s.quietDue := rfl
@[simp] theorem notifyMode_lapseDue : s.notifyMode.lapseDue = s.lapseDue := rfl
@[simp] theorem notifyMode_draws : s.notifyMode.draws = s.draws := rfl
@[simp] theorem notifyMode_pending : s.notifyMode.pending = s.pending := rfl

/-! ### stopLapse -/

@[simp] theorem stopLapse_relayClosed : s.stopLapse.relayClosed = s.relayClosed := rfl
@[simp] theorem stopLapse_stormLine : s.stopLapse.stormLine = s.stormLine := rfl
@[simp] theorem stopLapse_yholdLine : s.stopLapse.yholdLine = s.yholdLine := rfl
@[simp] theorem stopLapse_motion : s.stopLapse.motion = s.motion := rfl
@[simp] theorem stopLapse_nodeAddr : s.stopLapse.nodeAddr = s.nodeAddr := rfl
@[simp] theorem stopLapse_station : s.stopLapse.station = s.station := rfl
@[simp] theorem stopLapse_supervisor : s.stopLapse.supervisor = s.supervisor := rfl
@[simp] theorem stopLapse_params : s.stopLapse.params = s.params := rfl
@[simp] theorem stopLapse_turbines : s.stopLapse.turbines = s.turbines := rfl
@[simp] theorem stopLapse_rows : s.stopLapse.rows = s.rows := rfl
@[simp] theorem stopLapse_sources : s.stopLapse.sources = s.sources := rfl
@[simp] theorem stopLapse_filter : s.stopLapse.filter = s.filter := rfl
@[simp] theorem stopLapse_mark : s.stopLapse.mark = s.mark := rfl
@[simp] theorem stopLapse_sector : s.stopLapse.sector = s.sector := rfl
@[simp] theorem stopLapse_plans : s.stopLapse.plans = s.plans := rfl
@[simp] theorem stopLapse_waves : s.stopLapse.waves = s.waves := rfl
@[simp] theorem stopLapse_waveCounter : s.stopLapse.waveCounter = s.waveCounter := rfl
@[simp] theorem stopLapse_quiet : s.stopLapse.quiet = s.quiet := rfl
@[simp] theorem stopLapse_neutral : s.stopLapse.neutral = s.neutral := rfl
@[simp] theorem stopLapse_divider : s.stopLapse.divider = s.divider := rfl
@[simp] theorem stopLapse_timeBase : s.stopLapse.timeBase = s.timeBase := rfl
@[simp] theorem stopLapse_high : s.stopLapse.high = s.high := rfl
@[simp] theorem stopLapse_low : s.stopLapse.low = s.low := rfl
@[simp] theorem stopLapse_retargets : s.stopLapse.retargets = s.retargets := rfl
@[simp] theorem stopLapse_lowSlots : s.stopLapse.lowSlots = s.lowSlots := rfl
@[simp] theorem stopLapse_highSlots : s.stopLapse.highSlots = s.highSlots := rfl
@[simp] theorem stopLapse_mode : s.stopLapse.mode = s.mode := rfl
@[simp] theorem stopLapse_cause : s.stopLapse.cause = s.cause := rfl
@[simp] theorem stopLapse_storm : s.stopLapse.storm = s.storm := rfl
@[simp] theorem stopLapse_linkU : s.stopLapse.linkU = s.linkU := rfl
@[simp] theorem stopLapse_linkD : s.stopLapse.linkD = s.linkD := rfl
@[simp] theorem stopLapse_queueU : s.stopLapse.queueU = s.queueU := rfl
@[simp] theorem stopLapse_queueD : s.stopLapse.queueD = s.queueD := rfl
@[simp] theorem stopLapse_countersU : s.stopLapse.countersU = s.countersU := rfl
@[simp] theorem stopLapse_countersD : s.stopLapse.countersD = s.countersD := rfl
@[simp] theorem stopLapse_discardedManage : s.stopLapse.discardedManage = s.discardedManage := rfl
@[simp] theorem stopLapse_ownDropped : s.stopLapse.ownDropped = s.ownDropped := rfl
@[simp] theorem stopLapse_counters : s.stopLapse.counters = s.counters := rfl
@[simp] theorem stopLapse_estimateDue : s.stopLapse.estimateDue = s.estimateDue := rfl
@[simp] theorem stopLapse_quietDue : s.stopLapse.quietDue = s.quietDue := rfl
@[simp] theorem stopLapse_draws : s.stopLapse.draws = s.draws := rfl
@[simp] theorem stopLapse_pending : s.stopLapse.pending = s.pending := rfl

/-! ### stopQuiet -/

@[simp] theorem stopQuiet_relayClosed : s.stopQuiet.relayClosed = s.relayClosed := rfl
@[simp] theorem stopQuiet_stormLine : s.stopQuiet.stormLine = s.stormLine := rfl
@[simp] theorem stopQuiet_yholdLine : s.stopQuiet.yholdLine = s.yholdLine := rfl
@[simp] theorem stopQuiet_motion : s.stopQuiet.motion = s.motion := rfl
@[simp] theorem stopQuiet_nodeAddr : s.stopQuiet.nodeAddr = s.nodeAddr := rfl
@[simp] theorem stopQuiet_station : s.stopQuiet.station = s.station := rfl
@[simp] theorem stopQuiet_supervisor : s.stopQuiet.supervisor = s.supervisor := rfl
@[simp] theorem stopQuiet_params : s.stopQuiet.params = s.params := rfl
@[simp] theorem stopQuiet_turbines : s.stopQuiet.turbines = s.turbines := rfl
@[simp] theorem stopQuiet_rows : s.stopQuiet.rows = s.rows := rfl
@[simp] theorem stopQuiet_sources : s.stopQuiet.sources = s.sources := rfl
@[simp] theorem stopQuiet_filter : s.stopQuiet.filter = s.filter := rfl
@[simp] theorem stopQuiet_mark : s.stopQuiet.mark = s.mark := rfl
@[simp] theorem stopQuiet_sector : s.stopQuiet.sector = s.sector := rfl
@[simp] theorem stopQuiet_plans : s.stopQuiet.plans = s.plans := rfl
@[simp] theorem stopQuiet_waves : s.stopQuiet.waves = s.waves := rfl
@[simp] theorem stopQuiet_waveCounter : s.stopQuiet.waveCounter = s.waveCounter := rfl
@[simp] theorem stopQuiet_neutral : s.stopQuiet.neutral = s.neutral := rfl
@[simp] theorem stopQuiet_divider : s.stopQuiet.divider = s.divider := rfl
@[simp] theorem stopQuiet_timeBase : s.stopQuiet.timeBase = s.timeBase := rfl
@[simp] theorem stopQuiet_high : s.stopQuiet.high = s.high := rfl
@[simp] theorem stopQuiet_low : s.stopQuiet.low = s.low := rfl
@[simp] theorem stopQuiet_retargets : s.stopQuiet.retargets = s.retargets := rfl
@[simp] theorem stopQuiet_lowSlots : s.stopQuiet.lowSlots = s.lowSlots := rfl
@[simp] theorem stopQuiet_highSlots : s.stopQuiet.highSlots = s.highSlots := rfl
@[simp] theorem stopQuiet_mode : s.stopQuiet.mode = s.mode := rfl
@[simp] theorem stopQuiet_cause : s.stopQuiet.cause = s.cause := rfl
@[simp] theorem stopQuiet_storm : s.stopQuiet.storm = s.storm := rfl
@[simp] theorem stopQuiet_lapse : s.stopQuiet.lapse = s.lapse := rfl
@[simp] theorem stopQuiet_linkU : s.stopQuiet.linkU = s.linkU := rfl
@[simp] theorem stopQuiet_linkD : s.stopQuiet.linkD = s.linkD := rfl
@[simp] theorem stopQuiet_queueU : s.stopQuiet.queueU = s.queueU := rfl
@[simp] theorem stopQuiet_queueD : s.stopQuiet.queueD = s.queueD := rfl
@[simp] theorem stopQuiet_countersU : s.stopQuiet.countersU = s.countersU := rfl
@[simp] theorem stopQuiet_countersD : s.stopQuiet.countersD = s.countersD := rfl
@[simp] theorem stopQuiet_discardedManage : s.stopQuiet.discardedManage = s.discardedManage := rfl
@[simp] theorem stopQuiet_ownDropped : s.stopQuiet.ownDropped = s.ownDropped := rfl
@[simp] theorem stopQuiet_counters : s.stopQuiet.counters = s.counters := rfl
@[simp] theorem stopQuiet_estimateDue : s.stopQuiet.estimateDue = s.estimateDue := rfl
@[simp] theorem stopQuiet_lapseDue : s.stopQuiet.lapseDue = s.lapseDue := rfl
@[simp] theorem stopQuiet_draws : s.stopQuiet.draws = s.draws := rfl
@[simp] theorem stopQuiet_pending : s.stopQuiet.pending = s.pending := rfl

/-! ### setNeutralCause -/

@[simp] theorem setNeutralCause_relayClosed (c : NeutralCause) : (s.setNeutralCause c).relayClosed = s.relayClosed := rfl
@[simp] theorem setNeutralCause_stormLine (c : NeutralCause) : (s.setNeutralCause c).stormLine = s.stormLine := rfl
@[simp] theorem setNeutralCause_yholdLine (c : NeutralCause) : (s.setNeutralCause c).yholdLine = s.yholdLine := rfl
@[simp] theorem setNeutralCause_motion (c : NeutralCause) : (s.setNeutralCause c).motion = s.motion := rfl
@[simp] theorem setNeutralCause_nodeAddr (c : NeutralCause) : (s.setNeutralCause c).nodeAddr = s.nodeAddr := rfl
@[simp] theorem setNeutralCause_station (c : NeutralCause) : (s.setNeutralCause c).station = s.station := rfl
@[simp] theorem setNeutralCause_supervisor (c : NeutralCause) : (s.setNeutralCause c).supervisor = s.supervisor := rfl
@[simp] theorem setNeutralCause_params (c : NeutralCause) : (s.setNeutralCause c).params = s.params := rfl
@[simp] theorem setNeutralCause_turbines (c : NeutralCause) : (s.setNeutralCause c).turbines = s.turbines := rfl
@[simp] theorem setNeutralCause_rows (c : NeutralCause) : (s.setNeutralCause c).rows = s.rows := rfl
@[simp] theorem setNeutralCause_sources (c : NeutralCause) : (s.setNeutralCause c).sources = s.sources := rfl
@[simp] theorem setNeutralCause_filter (c : NeutralCause) : (s.setNeutralCause c).filter = s.filter := rfl
@[simp] theorem setNeutralCause_mark (c : NeutralCause) : (s.setNeutralCause c).mark = s.mark := rfl
@[simp] theorem setNeutralCause_sector (c : NeutralCause) : (s.setNeutralCause c).sector = s.sector := rfl
@[simp] theorem setNeutralCause_plans (c : NeutralCause) : (s.setNeutralCause c).plans = s.plans := rfl
@[simp] theorem setNeutralCause_waves (c : NeutralCause) : (s.setNeutralCause c).waves = s.waves := rfl
@[simp] theorem setNeutralCause_waveCounter (c : NeutralCause) : (s.setNeutralCause c).waveCounter = s.waveCounter := rfl
@[simp] theorem setNeutralCause_quiet (c : NeutralCause) : (s.setNeutralCause c).quiet = s.quiet := rfl
@[simp] theorem setNeutralCause_divider (c : NeutralCause) : (s.setNeutralCause c).divider = s.divider := rfl
@[simp] theorem setNeutralCause_timeBase (c : NeutralCause) : (s.setNeutralCause c).timeBase = s.timeBase := rfl
@[simp] theorem setNeutralCause_high (c : NeutralCause) : (s.setNeutralCause c).high = s.high := rfl
@[simp] theorem setNeutralCause_low (c : NeutralCause) : (s.setNeutralCause c).low = s.low := rfl
@[simp] theorem setNeutralCause_retargets (c : NeutralCause) : (s.setNeutralCause c).retargets = s.retargets := rfl
@[simp] theorem setNeutralCause_lowSlots (c : NeutralCause) : (s.setNeutralCause c).lowSlots = s.lowSlots := rfl
@[simp] theorem setNeutralCause_highSlots (c : NeutralCause) : (s.setNeutralCause c).highSlots = s.highSlots := rfl
@[simp] theorem setNeutralCause_mode (c : NeutralCause) : (s.setNeutralCause c).mode = s.mode := rfl
@[simp] theorem setNeutralCause_cause (c : NeutralCause) : (s.setNeutralCause c).cause = s.cause := rfl
@[simp] theorem setNeutralCause_storm (c : NeutralCause) : (s.setNeutralCause c).storm = s.storm := rfl
@[simp] theorem setNeutralCause_lapse (c : NeutralCause) : (s.setNeutralCause c).lapse = s.lapse := rfl
@[simp] theorem setNeutralCause_linkU (c : NeutralCause) : (s.setNeutralCause c).linkU = s.linkU := rfl
@[simp] theorem setNeutralCause_linkD (c : NeutralCause) : (s.setNeutralCause c).linkD = s.linkD := rfl
@[simp] theorem setNeutralCause_queueU (c : NeutralCause) : (s.setNeutralCause c).queueU = s.queueU := rfl
@[simp] theorem setNeutralCause_queueD (c : NeutralCause) : (s.setNeutralCause c).queueD = s.queueD := rfl
@[simp] theorem setNeutralCause_countersU (c : NeutralCause) : (s.setNeutralCause c).countersU = s.countersU := rfl
@[simp] theorem setNeutralCause_countersD (c : NeutralCause) : (s.setNeutralCause c).countersD = s.countersD := rfl
@[simp] theorem setNeutralCause_discardedManage (c : NeutralCause) : (s.setNeutralCause c).discardedManage = s.discardedManage := rfl
@[simp] theorem setNeutralCause_ownDropped (c : NeutralCause) : (s.setNeutralCause c).ownDropped = s.ownDropped := rfl
@[simp] theorem setNeutralCause_counters (c : NeutralCause) : (s.setNeutralCause c).counters = s.counters := rfl
@[simp] theorem setNeutralCause_estimateDue (c : NeutralCause) : (s.setNeutralCause c).estimateDue = s.estimateDue := rfl
@[simp] theorem setNeutralCause_quietDue (c : NeutralCause) : (s.setNeutralCause c).quietDue = s.quietDue := rfl
@[simp] theorem setNeutralCause_lapseDue (c : NeutralCause) : (s.setNeutralCause c).lapseDue = s.lapseDue := rfl
@[simp] theorem setNeutralCause_draws (c : NeutralCause) : (s.setNeutralCause c).draws = s.draws := rfl
@[simp] theorem setNeutralCause_pending (c : NeutralCause) : (s.setNeutralCause c).pending = s.pending := rfl

/-! ### discardForming -/

@[simp] theorem discardForming_relayClosed : s.discardForming.relayClosed = s.relayClosed := rfl
@[simp] theorem discardForming_stormLine : s.discardForming.stormLine = s.stormLine := rfl
@[simp] theorem discardForming_yholdLine : s.discardForming.yholdLine = s.yholdLine := rfl
@[simp] theorem discardForming_motion : s.discardForming.motion = s.motion := rfl
@[simp] theorem discardForming_nodeAddr : s.discardForming.nodeAddr = s.nodeAddr := rfl
@[simp] theorem discardForming_station : s.discardForming.station = s.station := rfl
@[simp] theorem discardForming_supervisor : s.discardForming.supervisor = s.supervisor := rfl
@[simp] theorem discardForming_params : s.discardForming.params = s.params := rfl
@[simp] theorem discardForming_turbines : s.discardForming.turbines = s.turbines := rfl
@[simp] theorem discardForming_rows : s.discardForming.rows = s.rows := rfl
@[simp] theorem discardForming_sources : s.discardForming.sources = s.sources := rfl
@[simp] theorem discardForming_filter : s.discardForming.filter = s.filter := rfl
@[simp] theorem discardForming_mark : s.discardForming.mark = s.mark := rfl
@[simp] theorem discardForming_sector : s.discardForming.sector = s.sector := rfl
@[simp] theorem discardForming_plans : s.discardForming.plans = s.plans := rfl
@[simp] theorem discardForming_waveCounter : s.discardForming.waveCounter = s.waveCounter := rfl
@[simp] theorem discardForming_neutral : s.discardForming.neutral = s.neutral := rfl
@[simp] theorem discardForming_divider : s.discardForming.divider = s.divider := rfl
@[simp] theorem discardForming_timeBase : s.discardForming.timeBase = s.timeBase := rfl
@[simp] theorem discardForming_high : s.discardForming.high = s.high := rfl
@[simp] theorem discardForming_low : s.discardForming.low = s.low := rfl
@[simp] theorem discardForming_retargets : s.discardForming.retargets = s.retargets := rfl
@[simp] theorem discardForming_lowSlots : s.discardForming.lowSlots = s.lowSlots := rfl
@[simp] theorem discardForming_highSlots : s.discardForming.highSlots = s.highSlots := rfl
@[simp] theorem discardForming_mode : s.discardForming.mode = s.mode := rfl
@[simp] theorem discardForming_cause : s.discardForming.cause = s.cause := rfl
@[simp] theorem discardForming_storm : s.discardForming.storm = s.storm := rfl
@[simp] theorem discardForming_lapse : s.discardForming.lapse = s.lapse := rfl
@[simp] theorem discardForming_linkU : s.discardForming.linkU = s.linkU := rfl
@[simp] theorem discardForming_linkD : s.discardForming.linkD = s.linkD := rfl
@[simp] theorem discardForming_queueU : s.discardForming.queueU = s.queueU := rfl
@[simp] theorem discardForming_queueD : s.discardForming.queueD = s.queueD := rfl
@[simp] theorem discardForming_countersU : s.discardForming.countersU = s.countersU := rfl
@[simp] theorem discardForming_countersD : s.discardForming.countersD = s.countersD := rfl
@[simp] theorem discardForming_discardedManage : s.discardForming.discardedManage = s.discardedManage := rfl
@[simp] theorem discardForming_ownDropped : s.discardForming.ownDropped = s.ownDropped := rfl
@[simp] theorem discardForming_counters : s.discardForming.counters = s.counters := rfl
@[simp] theorem discardForming_estimateDue : s.discardForming.estimateDue = s.estimateDue := rfl
@[simp] theorem discardForming_lapseDue : s.discardForming.lapseDue = s.lapseDue := rfl
@[simp] theorem discardForming_draws : s.discardForming.draws = s.draws := rfl
@[simp] theorem discardForming_pending : s.discardForming.pending = s.pending := rfl

/-! ### evaluateLatches -/

@[simp] theorem evaluateLatches_relayClosed : s.evaluateLatches.relayClosed = s.relayClosed := rfl
@[simp] theorem evaluateLatches_stormLine : s.evaluateLatches.stormLine = s.stormLine := rfl
@[simp] theorem evaluateLatches_yholdLine : s.evaluateLatches.yholdLine = s.yholdLine := rfl
@[simp] theorem evaluateLatches_motion : s.evaluateLatches.motion = s.motion := rfl
@[simp] theorem evaluateLatches_nodeAddr : s.evaluateLatches.nodeAddr = s.nodeAddr := rfl
@[simp] theorem evaluateLatches_station : s.evaluateLatches.station = s.station := rfl
@[simp] theorem evaluateLatches_supervisor : s.evaluateLatches.supervisor = s.supervisor := rfl
@[simp] theorem evaluateLatches_params : s.evaluateLatches.params = s.params := rfl
@[simp] theorem evaluateLatches_turbines : s.evaluateLatches.turbines = s.turbines := rfl
@[simp] theorem evaluateLatches_rows : s.evaluateLatches.rows = s.rows := rfl
@[simp] theorem evaluateLatches_sources : s.evaluateLatches.sources = s.sources := rfl
@[simp] theorem evaluateLatches_filter : s.evaluateLatches.filter = s.filter := rfl
@[simp] theorem evaluateLatches_mark : s.evaluateLatches.mark = s.mark := rfl
@[simp] theorem evaluateLatches_sector : s.evaluateLatches.sector = s.sector := rfl
@[simp] theorem evaluateLatches_plans : s.evaluateLatches.plans = s.plans := rfl
@[simp] theorem evaluateLatches_waveCounter : s.evaluateLatches.waveCounter = s.waveCounter := rfl
@[simp] theorem evaluateLatches_quiet : s.evaluateLatches.quiet = s.quiet := rfl
@[simp] theorem evaluateLatches_neutral : s.evaluateLatches.neutral = s.neutral := rfl
@[simp] theorem evaluateLatches_divider : s.evaluateLatches.divider = s.divider := rfl
@[simp] theorem evaluateLatches_timeBase : s.evaluateLatches.timeBase = s.timeBase := rfl
@[simp] theorem evaluateLatches_high : s.evaluateLatches.high = s.high := rfl
@[simp] theorem evaluateLatches_low : s.evaluateLatches.low = s.low := rfl
@[simp] theorem evaluateLatches_retargets : s.evaluateLatches.retargets = s.retargets := rfl
@[simp] theorem evaluateLatches_lowSlots : s.evaluateLatches.lowSlots = s.lowSlots := rfl
@[simp] theorem evaluateLatches_highSlots : s.evaluateLatches.highSlots = s.highSlots := rfl
@[simp] theorem evaluateLatches_mode : s.evaluateLatches.mode = s.mode := rfl
@[simp] theorem evaluateLatches_cause : s.evaluateLatches.cause = s.cause := rfl
@[simp] theorem evaluateLatches_storm : s.evaluateLatches.storm = s.storm := rfl
@[simp] theorem evaluateLatches_lapse : s.evaluateLatches.lapse = s.lapse := rfl
@[simp] theorem evaluateLatches_linkU : s.evaluateLatches.linkU = s.linkU := rfl
@[simp] theorem evaluateLatches_linkD : s.evaluateLatches.linkD = s.linkD := rfl
@[simp] theorem evaluateLatches_queueU : s.evaluateLatches.queueU = s.queueU := rfl
@[simp] theorem evaluateLatches_queueD : s.evaluateLatches.queueD = s.queueD := rfl
@[simp] theorem evaluateLatches_countersU : s.evaluateLatches.countersU = s.countersU := rfl
@[simp] theorem evaluateLatches_countersD : s.evaluateLatches.countersD = s.countersD := rfl
@[simp] theorem evaluateLatches_discardedManage : s.evaluateLatches.discardedManage = s.discardedManage := rfl
@[simp] theorem evaluateLatches_ownDropped : s.evaluateLatches.ownDropped = s.ownDropped := rfl
@[simp] theorem evaluateLatches_counters : s.evaluateLatches.counters = s.counters := rfl
@[simp] theorem evaluateLatches_estimateDue : s.evaluateLatches.estimateDue = s.estimateDue := rfl
@[simp] theorem evaluateLatches_quietDue : s.evaluateLatches.quietDue = s.quietDue := rfl
@[simp] theorem evaluateLatches_lapseDue : s.evaluateLatches.lapseDue = s.lapseDue := rfl
@[simp] theorem evaluateLatches_draws : s.evaluateLatches.draws = s.draws := rfl
@[simp] theorem evaluateLatches_pending : s.evaluateLatches.pending = s.pending := rfl

/-! ### judgeSources -/

@[simp] theorem judgeSources_relayClosed : s.judgeSources.relayClosed = s.relayClosed := rfl
@[simp] theorem judgeSources_stormLine : s.judgeSources.stormLine = s.stormLine := rfl
@[simp] theorem judgeSources_yholdLine : s.judgeSources.yholdLine = s.yholdLine := rfl
@[simp] theorem judgeSources_motion : s.judgeSources.motion = s.motion := rfl
@[simp] theorem judgeSources_nodeAddr : s.judgeSources.nodeAddr = s.nodeAddr := rfl
@[simp] theorem judgeSources_station : s.judgeSources.station = s.station := rfl
@[simp] theorem judgeSources_supervisor : s.judgeSources.supervisor = s.supervisor := rfl
@[simp] theorem judgeSources_params : s.judgeSources.params = s.params := rfl
@[simp] theorem judgeSources_turbines : s.judgeSources.turbines = s.turbines := rfl
@[simp] theorem judgeSources_rows : s.judgeSources.rows = s.rows := rfl
@[simp] theorem judgeSources_filter : s.judgeSources.filter = s.filter := rfl
@[simp] theorem judgeSources_mark : s.judgeSources.mark = s.mark := rfl
@[simp] theorem judgeSources_sector : s.judgeSources.sector = s.sector := rfl
@[simp] theorem judgeSources_plans : s.judgeSources.plans = s.plans := rfl
@[simp] theorem judgeSources_waves : s.judgeSources.waves = s.waves := rfl
@[simp] theorem judgeSources_waveCounter : s.judgeSources.waveCounter = s.waveCounter := rfl
@[simp] theorem judgeSources_quiet : s.judgeSources.quiet = s.quiet := rfl
@[simp] theorem judgeSources_neutral : s.judgeSources.neutral = s.neutral := rfl
@[simp] theorem judgeSources_divider : s.judgeSources.divider = s.divider := rfl
@[simp] theorem judgeSources_timeBase : s.judgeSources.timeBase = s.timeBase := rfl
@[simp] theorem judgeSources_high : s.judgeSources.high = s.high := rfl
@[simp] theorem judgeSources_low : s.judgeSources.low = s.low := rfl
@[simp] theorem judgeSources_retargets : s.judgeSources.retargets = s.retargets := rfl
@[simp] theorem judgeSources_lowSlots : s.judgeSources.lowSlots = s.lowSlots := rfl
@[simp] theorem judgeSources_highSlots : s.judgeSources.highSlots = s.highSlots := rfl
@[simp] theorem judgeSources_mode : s.judgeSources.mode = s.mode := rfl
@[simp] theorem judgeSources_cause : s.judgeSources.cause = s.cause := rfl
@[simp] theorem judgeSources_storm : s.judgeSources.storm = s.storm := rfl
@[simp] theorem judgeSources_lapse : s.judgeSources.lapse = s.lapse := rfl
@[simp] theorem judgeSources_linkU : s.judgeSources.linkU = s.linkU := rfl
@[simp] theorem judgeSources_linkD : s.judgeSources.linkD = s.linkD := rfl
@[simp] theorem judgeSources_queueU : s.judgeSources.queueU = s.queueU := rfl
@[simp] theorem judgeSources_queueD : s.judgeSources.queueD = s.queueD := rfl
@[simp] theorem judgeSources_countersU : s.judgeSources.countersU = s.countersU := rfl
@[simp] theorem judgeSources_countersD : s.judgeSources.countersD = s.countersD := rfl
@[simp] theorem judgeSources_discardedManage : s.judgeSources.discardedManage = s.discardedManage := rfl
@[simp] theorem judgeSources_ownDropped : s.judgeSources.ownDropped = s.ownDropped := rfl
@[simp] theorem judgeSources_counters : s.judgeSources.counters = s.counters := rfl
@[simp] theorem judgeSources_estimateDue : s.judgeSources.estimateDue = s.estimateDue := rfl
@[simp] theorem judgeSources_quietDue : s.judgeSources.quietDue = s.quietDue := rfl
@[simp] theorem judgeSources_lapseDue : s.judgeSources.lapseDue = s.lapseDue := rfl
@[simp] theorem judgeSources_draws : s.judgeSources.draws = s.draws := rfl
@[simp] theorem judgeSources_pending : s.judgeSources.pending = s.pending := rfl

/-! ### observe -/

@[simp] theorem observe_relayClosed (k : SourceKind) (n v d : Nat) : (s.observe k n v d).relayClosed = s.relayClosed := rfl
@[simp] theorem observe_stormLine (k : SourceKind) (n v d : Nat) : (s.observe k n v d).stormLine = s.stormLine := rfl
@[simp] theorem observe_yholdLine (k : SourceKind) (n v d : Nat) : (s.observe k n v d).yholdLine = s.yholdLine := rfl
@[simp] theorem observe_motion (k : SourceKind) (n v d : Nat) : (s.observe k n v d).motion = s.motion := rfl
@[simp] theorem observe_nodeAddr (k : SourceKind) (n v d : Nat) : (s.observe k n v d).nodeAddr = s.nodeAddr := rfl
@[simp] theorem observe_station (k : SourceKind) (n v d : Nat) : (s.observe k n v d).station = s.station := rfl
@[simp] theorem observe_supervisor (k : SourceKind) (n v d : Nat) : (s.observe k n v d).supervisor = s.supervisor := rfl
@[simp] theorem observe_params (k : SourceKind) (n v d : Nat) : (s.observe k n v d).params = s.params := rfl
@[simp] theorem observe_turbines (k : SourceKind) (n v d : Nat) : (s.observe k n v d).turbines = s.turbines := rfl
@[simp] theorem observe_rows (k : SourceKind) (n v d : Nat) : (s.observe k n v d).rows = s.rows := rfl
@[simp] theorem observe_filter (k : SourceKind) (n v d : Nat) : (s.observe k n v d).filter = s.filter := rfl
@[simp] theorem observe_mark (k : SourceKind) (n v d : Nat) : (s.observe k n v d).mark = s.mark := rfl
@[simp] theorem observe_sector (k : SourceKind) (n v d : Nat) : (s.observe k n v d).sector = s.sector := rfl
@[simp] theorem observe_plans (k : SourceKind) (n v d : Nat) : (s.observe k n v d).plans = s.plans := rfl
@[simp] theorem observe_waves (k : SourceKind) (n v d : Nat) : (s.observe k n v d).waves = s.waves := rfl
@[simp] theorem observe_waveCounter (k : SourceKind) (n v d : Nat) : (s.observe k n v d).waveCounter = s.waveCounter := rfl
@[simp] theorem observe_quiet (k : SourceKind) (n v d : Nat) : (s.observe k n v d).quiet = s.quiet := rfl
@[simp] theorem observe_neutral (k : SourceKind) (n v d : Nat) : (s.observe k n v d).neutral = s.neutral := rfl
@[simp] theorem observe_divider (k : SourceKind) (n v d : Nat) : (s.observe k n v d).divider = s.divider := rfl
@[simp] theorem observe_timeBase (k : SourceKind) (n v d : Nat) : (s.observe k n v d).timeBase = s.timeBase := rfl
@[simp] theorem observe_high (k : SourceKind) (n v d : Nat) : (s.observe k n v d).high = s.high := rfl
@[simp] theorem observe_low (k : SourceKind) (n v d : Nat) : (s.observe k n v d).low = s.low := rfl
@[simp] theorem observe_retargets (k : SourceKind) (n v d : Nat) : (s.observe k n v d).retargets = s.retargets := rfl
@[simp] theorem observe_lowSlots (k : SourceKind) (n v d : Nat) : (s.observe k n v d).lowSlots = s.lowSlots := rfl
@[simp] theorem observe_highSlots (k : SourceKind) (n v d : Nat) : (s.observe k n v d).highSlots = s.highSlots := rfl
@[simp] theorem observe_mode (k : SourceKind) (n v d : Nat) : (s.observe k n v d).mode = s.mode := rfl
@[simp] theorem observe_cause (k : SourceKind) (n v d : Nat) : (s.observe k n v d).cause = s.cause := rfl
@[simp] theorem observe_storm (k : SourceKind) (n v d : Nat) : (s.observe k n v d).storm = s.storm := rfl
@[simp] theorem observe_lapse (k : SourceKind) (n v d : Nat) : (s.observe k n v d).lapse = s.lapse := rfl
@[simp] theorem observe_linkU (k : SourceKind) (n v d : Nat) : (s.observe k n v d).linkU = s.linkU := rfl
@[simp] theorem observe_linkD (k : SourceKind) (n v d : Nat) : (s.observe k n v d).linkD = s.linkD := rfl
@[simp] theorem observe_queueU (k : SourceKind) (n v d : Nat) : (s.observe k n v d).queueU = s.queueU := rfl
@[simp] theorem observe_queueD (k : SourceKind) (n v d : Nat) : (s.observe k n v d).queueD = s.queueD := rfl
@[simp] theorem observe_countersU (k : SourceKind) (n v d : Nat) : (s.observe k n v d).countersU = s.countersU := rfl
@[simp] theorem observe_countersD (k : SourceKind) (n v d : Nat) : (s.observe k n v d).countersD = s.countersD := rfl
@[simp] theorem observe_discardedManage (k : SourceKind) (n v d : Nat) : (s.observe k n v d).discardedManage = s.discardedManage := rfl
@[simp] theorem observe_ownDropped (k : SourceKind) (n v d : Nat) : (s.observe k n v d).ownDropped = s.ownDropped := rfl
@[simp] theorem observe_counters (k : SourceKind) (n v d : Nat) : (s.observe k n v d).counters = s.counters := rfl
@[simp] theorem observe_estimateDue (k : SourceKind) (n v d : Nat) : (s.observe k n v d).estimateDue = s.estimateDue := rfl
@[simp] theorem observe_quietDue (k : SourceKind) (n v d : Nat) : (s.observe k n v d).quietDue = s.quietDue := rfl
@[simp] theorem observe_lapseDue (k : SourceKind) (n v d : Nat) : (s.observe k n v d).lapseDue = s.lapseDue := rfl
@[simp] theorem observe_draws (k : SourceKind) (n v d : Nat) : (s.observe k n v d).draws = s.draws := rfl
@[simp] theorem observe_pending (k : SourceKind) (n v d : Nat) : (s.observe k n v d).pending = s.pending := rfl

/-! ### putEntry -/

@[simp] theorem putEntry_relayClosed (n : Nat) (c : TurbineConfig) : (s.putEntry n c).relayClosed = s.relayClosed := rfl
@[simp] theorem putEntry_stormLine (n : Nat) (c : TurbineConfig) : (s.putEntry n c).stormLine = s.stormLine := rfl
@[simp] theorem putEntry_yholdLine (n : Nat) (c : TurbineConfig) : (s.putEntry n c).yholdLine = s.yholdLine := rfl
@[simp] theorem putEntry_motion (n : Nat) (c : TurbineConfig) : (s.putEntry n c).motion = s.motion := rfl
@[simp] theorem putEntry_nodeAddr (n : Nat) (c : TurbineConfig) : (s.putEntry n c).nodeAddr = s.nodeAddr := rfl
@[simp] theorem putEntry_station (n : Nat) (c : TurbineConfig) : (s.putEntry n c).station = s.station := rfl
@[simp] theorem putEntry_supervisor (n : Nat) (c : TurbineConfig) : (s.putEntry n c).supervisor = s.supervisor := rfl
@[simp] theorem putEntry_params (n : Nat) (c : TurbineConfig) : (s.putEntry n c).params = s.params := rfl
@[simp] theorem putEntry_rows (n : Nat) (c : TurbineConfig) : (s.putEntry n c).rows = s.rows := rfl
@[simp] theorem putEntry_sources (n : Nat) (c : TurbineConfig) : (s.putEntry n c).sources = s.sources := rfl
@[simp] theorem putEntry_filter (n : Nat) (c : TurbineConfig) : (s.putEntry n c).filter = s.filter := rfl
@[simp] theorem putEntry_mark (n : Nat) (c : TurbineConfig) : (s.putEntry n c).mark = s.mark := rfl
@[simp] theorem putEntry_sector (n : Nat) (c : TurbineConfig) : (s.putEntry n c).sector = s.sector := rfl
@[simp] theorem putEntry_plans (n : Nat) (c : TurbineConfig) : (s.putEntry n c).plans = s.plans := rfl
@[simp] theorem putEntry_waves (n : Nat) (c : TurbineConfig) : (s.putEntry n c).waves = s.waves := rfl
@[simp] theorem putEntry_waveCounter (n : Nat) (c : TurbineConfig) : (s.putEntry n c).waveCounter = s.waveCounter := rfl
@[simp] theorem putEntry_quiet (n : Nat) (c : TurbineConfig) : (s.putEntry n c).quiet = s.quiet := rfl
@[simp] theorem putEntry_neutral (n : Nat) (c : TurbineConfig) : (s.putEntry n c).neutral = s.neutral := rfl
@[simp] theorem putEntry_divider (n : Nat) (c : TurbineConfig) : (s.putEntry n c).divider = s.divider := rfl
@[simp] theorem putEntry_timeBase (n : Nat) (c : TurbineConfig) : (s.putEntry n c).timeBase = s.timeBase := rfl
@[simp] theorem putEntry_high (n : Nat) (c : TurbineConfig) : (s.putEntry n c).high = s.high := rfl
@[simp] theorem putEntry_low (n : Nat) (c : TurbineConfig) : (s.putEntry n c).low = s.low := rfl
@[simp] theorem putEntry_retargets (n : Nat) (c : TurbineConfig) : (s.putEntry n c).retargets = s.retargets := rfl
@[simp] theorem putEntry_lowSlots (n : Nat) (c : TurbineConfig) : (s.putEntry n c).lowSlots = s.lowSlots := rfl
@[simp] theorem putEntry_highSlots (n : Nat) (c : TurbineConfig) : (s.putEntry n c).highSlots = s.highSlots := rfl
@[simp] theorem putEntry_mode (n : Nat) (c : TurbineConfig) : (s.putEntry n c).mode = s.mode := rfl
@[simp] theorem putEntry_cause (n : Nat) (c : TurbineConfig) : (s.putEntry n c).cause = s.cause := rfl
@[simp] theorem putEntry_storm (n : Nat) (c : TurbineConfig) : (s.putEntry n c).storm = s.storm := rfl
@[simp] theorem putEntry_lapse (n : Nat) (c : TurbineConfig) : (s.putEntry n c).lapse = s.lapse := rfl
@[simp] theorem putEntry_linkU (n : Nat) (c : TurbineConfig) : (s.putEntry n c).linkU = s.linkU := rfl
@[simp] theorem putEntry_linkD (n : Nat) (c : TurbineConfig) : (s.putEntry n c).linkD = s.linkD := rfl
@[simp] theorem putEntry_queueU (n : Nat) (c : TurbineConfig) : (s.putEntry n c).queueU = s.queueU := rfl
@[simp] theorem putEntry_queueD (n : Nat) (c : TurbineConfig) : (s.putEntry n c).queueD = s.queueD := rfl
@[simp] theorem putEntry_countersU (n : Nat) (c : TurbineConfig) : (s.putEntry n c).countersU = s.countersU := rfl
@[simp] theorem putEntry_countersD (n : Nat) (c : TurbineConfig) : (s.putEntry n c).countersD = s.countersD := rfl
@[simp] theorem putEntry_discardedManage (n : Nat) (c : TurbineConfig) : (s.putEntry n c).discardedManage = s.discardedManage := rfl
@[simp] theorem putEntry_ownDropped (n : Nat) (c : TurbineConfig) : (s.putEntry n c).ownDropped = s.ownDropped := rfl
@[simp] theorem putEntry_counters (n : Nat) (c : TurbineConfig) : (s.putEntry n c).counters = s.counters := rfl
@[simp] theorem putEntry_estimateDue (n : Nat) (c : TurbineConfig) : (s.putEntry n c).estimateDue = s.estimateDue := rfl
@[simp] theorem putEntry_quietDue (n : Nat) (c : TurbineConfig) : (s.putEntry n c).quietDue = s.quietDue := rfl
@[simp] theorem putEntry_lapseDue (n : Nat) (c : TurbineConfig) : (s.putEntry n c).lapseDue = s.lapseDue := rfl
@[simp] theorem putEntry_draws (n : Nat) (c : TurbineConfig) : (s.putEntry n c).draws = s.draws := rfl
@[simp] theorem putEntry_pending (n : Nat) (c : TurbineConfig) : (s.putEntry n c).pending = s.pending := rfl

/-! ### putPlan -/

@[simp] theorem putPlan_relayClosed (k : Nat) (p : Option Plan) : (s.putPlan k p).relayClosed = s.relayClosed := rfl
@[simp] theorem putPlan_stormLine (k : Nat) (p : Option Plan) : (s.putPlan k p).stormLine = s.stormLine := rfl
@[simp] theorem putPlan_yholdLine (k : Nat) (p : Option Plan) : (s.putPlan k p).yholdLine = s.yholdLine := rfl
@[simp] theorem putPlan_motion (k : Nat) (p : Option Plan) : (s.putPlan k p).motion = s.motion := rfl
@[simp] theorem putPlan_nodeAddr (k : Nat) (p : Option Plan) : (s.putPlan k p).nodeAddr = s.nodeAddr := rfl
@[simp] theorem putPlan_station (k : Nat) (p : Option Plan) : (s.putPlan k p).station = s.station := rfl
@[simp] theorem putPlan_supervisor (k : Nat) (p : Option Plan) : (s.putPlan k p).supervisor = s.supervisor := rfl
@[simp] theorem putPlan_params (k : Nat) (p : Option Plan) : (s.putPlan k p).params = s.params := rfl
@[simp] theorem putPlan_turbines (k : Nat) (p : Option Plan) : (s.putPlan k p).turbines = s.turbines := rfl
@[simp] theorem putPlan_rows (k : Nat) (p : Option Plan) : (s.putPlan k p).rows = s.rows := rfl
@[simp] theorem putPlan_sources (k : Nat) (p : Option Plan) : (s.putPlan k p).sources = s.sources := rfl
@[simp] theorem putPlan_filter (k : Nat) (p : Option Plan) : (s.putPlan k p).filter = s.filter := rfl
@[simp] theorem putPlan_mark (k : Nat) (p : Option Plan) : (s.putPlan k p).mark = s.mark := rfl
@[simp] theorem putPlan_sector (k : Nat) (p : Option Plan) : (s.putPlan k p).sector = s.sector := rfl
@[simp] theorem putPlan_waves (k : Nat) (p : Option Plan) : (s.putPlan k p).waves = s.waves := rfl
@[simp] theorem putPlan_waveCounter (k : Nat) (p : Option Plan) : (s.putPlan k p).waveCounter = s.waveCounter := rfl
@[simp] theorem putPlan_quiet (k : Nat) (p : Option Plan) : (s.putPlan k p).quiet = s.quiet := rfl
@[simp] theorem putPlan_neutral (k : Nat) (p : Option Plan) : (s.putPlan k p).neutral = s.neutral := rfl
@[simp] theorem putPlan_divider (k : Nat) (p : Option Plan) : (s.putPlan k p).divider = s.divider := rfl
@[simp] theorem putPlan_timeBase (k : Nat) (p : Option Plan) : (s.putPlan k p).timeBase = s.timeBase := rfl
@[simp] theorem putPlan_high (k : Nat) (p : Option Plan) : (s.putPlan k p).high = s.high := rfl
@[simp] theorem putPlan_low (k : Nat) (p : Option Plan) : (s.putPlan k p).low = s.low := rfl
@[simp] theorem putPlan_retargets (k : Nat) (p : Option Plan) : (s.putPlan k p).retargets = s.retargets := rfl
@[simp] theorem putPlan_lowSlots (k : Nat) (p : Option Plan) : (s.putPlan k p).lowSlots = s.lowSlots := rfl
@[simp] theorem putPlan_highSlots (k : Nat) (p : Option Plan) : (s.putPlan k p).highSlots = s.highSlots := rfl
@[simp] theorem putPlan_mode (k : Nat) (p : Option Plan) : (s.putPlan k p).mode = s.mode := rfl
@[simp] theorem putPlan_cause (k : Nat) (p : Option Plan) : (s.putPlan k p).cause = s.cause := rfl
@[simp] theorem putPlan_storm (k : Nat) (p : Option Plan) : (s.putPlan k p).storm = s.storm := rfl
@[simp] theorem putPlan_lapse (k : Nat) (p : Option Plan) : (s.putPlan k p).lapse = s.lapse := rfl
@[simp] theorem putPlan_linkU (k : Nat) (p : Option Plan) : (s.putPlan k p).linkU = s.linkU := rfl
@[simp] theorem putPlan_linkD (k : Nat) (p : Option Plan) : (s.putPlan k p).linkD = s.linkD := rfl
@[simp] theorem putPlan_queueU (k : Nat) (p : Option Plan) : (s.putPlan k p).queueU = s.queueU := rfl
@[simp] theorem putPlan_queueD (k : Nat) (p : Option Plan) : (s.putPlan k p).queueD = s.queueD := rfl
@[simp] theorem putPlan_countersU (k : Nat) (p : Option Plan) : (s.putPlan k p).countersU = s.countersU := rfl
@[simp] theorem putPlan_countersD (k : Nat) (p : Option Plan) : (s.putPlan k p).countersD = s.countersD := rfl
@[simp] theorem putPlan_discardedManage (k : Nat) (p : Option Plan) : (s.putPlan k p).discardedManage = s.discardedManage := rfl
@[simp] theorem putPlan_ownDropped (k : Nat) (p : Option Plan) : (s.putPlan k p).ownDropped = s.ownDropped := rfl
@[simp] theorem putPlan_counters (k : Nat) (p : Option Plan) : (s.putPlan k p).counters = s.counters := rfl
@[simp] theorem putPlan_estimateDue (k : Nat) (p : Option Plan) : (s.putPlan k p).estimateDue = s.estimateDue := rfl
@[simp] theorem putPlan_quietDue (k : Nat) (p : Option Plan) : (s.putPlan k p).quietDue = s.quietDue := rfl
@[simp] theorem putPlan_lapseDue (k : Nat) (p : Option Plan) : (s.putPlan k p).lapseDue = s.lapseDue := rfl
@[simp] theorem putPlan_draws (k : Nat) (p : Option Plan) : (s.putPlan k p).draws = s.draws := rfl
@[simp] theorem putPlan_pending (k : Nat) (p : Option Plan) : (s.putPlan k p).pending = s.pending := rfl

end Sys2Proof.Machine.State
end

