-- ==== Sys2Proof/Laws/Propagation.lean ====
section
/-! SUPPORT. What the propagation of an event can do, said once. `Propagates R` lists the plain updates that releases, skips,
cancellations, completions, grants, retargets, freeings, neutral gains and ends of modes are made of; every such operation then takes a
state to one that `R` relates to it. A frame ("this field is as before") and an invariant ("this bound still holds") are both such an
`R`. -/

namespace Sys2Proof.Machine

/-- The parts of a live record that only a report, a count or a load changes. -/
def Live.Reported (g : Live → Live) : Prop :=
  ∀ l, (g l).applied = l.applied ∧ (g l).moving = l.moving ∧ (g l).state = l.state ∧ (g l).age = l.age ∧
    (g l).fault = l.fault

/-- The parts of a wave record that propagation never changes. -/
def Wave.key (w : Wave) : Nat × Nat × Bool × Option Nat × List (Nat × Int) :=
  (w.num, w.set, w.running, w.sector, w.targets)

/-- A change of the general counters that touches waves done, stalls and skips alone. -/
def Counters.Propagated (g : Counters → Counters) : Prop :=
  ∀ c, (g c).closed = c.closed ∧ (g c).folded = c.folded ∧ (g c).dropped = c.dropped ∧ (g c).veers = c.veers

/-- The slot count leaves room for a grant of a class (R128). -/
def State.Room (s : State) : SlotClass → Prop
  | .low => s.slots < s.params.budget
  | .high => s.slots < s.params.budget + s.params.headroom

/-- The plain updates that propagation is made of. -/
structure Propagates (R : State → State → Prop) : Prop where
  refl : ∀ s, R s s
  trans : ∀ {s t u}, R s t → R t u → R s u
  live : ∀ s n g, Live.Reported g → R s (s.updLive n g)
  wave : ∀ s n g, (∀ w : Wave, (g w).key = w.key) → R s (s.updWave n g)
  unwave : ∀ (s : State) (p : Wave → Bool), R s { s with waves := s.waves.filter p }
  neutral : ∀ (s : State) n, R s { s with neutral := n }
  divider : ∀ (s : State) d, R s { s with divider := d }
  lists : ∀ (s : State) h l r, R s { s with high := h, low := l, retargets := r }
  take : ∀ (s : State) c, s.Room c → R s (s.takeSlot c)
  give : ∀ (s : State) c, R s (s.giveSlot c)
  shift : ∀ (s : State), R s s.shiftSlot
  sendU : ∀ (s : State) f, R s (s.sendU f)
  sendD : ∀ (s : State) f, s.freePlaces ≠ 0 → R s (s.sendD f)
  tally : ∀ (s : State) g, Counters.Propagated g → R s (s.tally g)
  draw : ∀ (s : State) n, R s { s with draws := n }
  mode : ∀ (s : State) m c, R s (s.setMode m c)
  lapse : ∀ (s : State), R s s.stopLapse

/-- The grant condition implies a free own place. -/
theorem State.grantable_free {s : State} {p : Nat × SlotClass} (e : s.grantable = some p) :
    s.freePlaces ≠ 0 := by
  intro z; simp [State.grantable, z] at e

/-- The grant condition implies room for its class. -/
theorem State.grantable_room {s : State} {p : Nat × SlotClass} (e : s.grantable = some p) : s.Room p.2 := by
  unfold State.grantable at e
  split at e
  · cases e
  · split at e
    · split at e
      · rename_i g; cases e; exact g
      · cases e
    · split at e
      · rename_i g; cases e; exact g.1
      · cases e
    · cases e

namespace Propagates

variable {R : State → State → Prop} (h : Propagates R)
include h

/-- A fold of propagating operations propagates. -/
theorem fold {α : Type} (f : State → α → State) (hf : ∀ s a, R s (f s a)) (l : List α) (s : State) :
    R s (l.foldl f s) := by
  induction l generalizing s with
  | nil => exact h.refl s
  | cons a l ih => exact h.trans (hf s a) (ih (f s a))

theorem step (s : State) (n r : Nat) (g : WaveStep → WaveStep) : R s (s.updStep n r g) :=
  h.wave s n _ fun _ => rfl

theorem place (s : State) (e : DivEntry) : R s (s.place e) := h.divider s _

theorem withdraw (s : State) (q : Requester) : R s (s.withdraw q) := h.divider s _

theorem notify (s : State) (n : Notice) : R s (s.notify n) := h.sendU s _

theorem updNeutral (s : State) (r : Nat) (g : NeutralStep → NeutralStep) : R s (s.updNeutral r g) := h.neutral s _

theorem idle (s : State) (n : Nat) : R s (s.updLive n Live.toIdle) :=
  h.live s n _ fun _ => ⟨rfl, rfl, rfl, rfl, rfl⟩

theorem enterHolding (s : State) (n r : Nat) : R s (s.enterHolding n r) := by
  unfold State.enterHolding
  split
  · exact h.refl s
  · split
    · exact h.refl s
    · exact h.trans (h.step s n r _) (h.place _ _)

theorem trigger (s : State) (n r : Nat) : R s (s.trigger n r) := by
  unfold State.trigger
  split
  · split
    · exact h.enterHolding s n _
    · exact h.refl s
  · exact h.refl s

theorem dropHold (s : State) (n r : Nat) : R s (s.dropHold n r) := by
  unfold State.dropHold
  split
  · split
    · exact h.trans (h.withdraw s _) (h.step _ n r _)
    · exact h.refl s
  · exact h.refl s

theorem enterDone (s : State) (n r : Nat) : R s (s.enterDone n r) := by
  unfold State.enterDone
  split
  · exact h.refl s
  · simp only
    split
    · exact h.step s n r _
    · exact h.trans (h.step s n r _) (h.trigger _ n r)

theorem completeWave (s : State) (w : Wave) : R s (s.completeWave w) :=
  h.trans (h.unwave s _) (h.trans (h.tally _ _ (by intro _; exact ⟨rfl, rfl, rfl, rfl⟩)) (h.notify _ _))

theorem completeWaves (s : State) : R s s.completeWaves := h.fold _ h.completeWave _ s

theorem skipStep (s : State) (n r : Nat) (x : SkipReason) : R s (s.skipStep n r x) :=
  h.trans (h.dropHold s n r) <| h.trans (h.step _ n r _) <| h.trans (h.trigger _ n r) <|
    h.trans (h.tally _ _ (by intro _; exact ⟨rfl, rfl, rfl, rfl⟩)) <| h.trans (h.notify _ _) (h.completeWaves _)

theorem skipAt (s : State) (r : Nat) (x : SkipReason) : R s (s.skipAt r x) :=
  h.fold _ (fun s n => h.skipStep s n r x) _ s

theorem cancelStep (s : State) (n r : Nat) : R s (s.cancelStep n r) :=
  h.trans (h.dropHold s n r) (h.step _ n r _)

theorem unqueueStep (s : State) (n r : Nat) : R s (s.unqueueStep n r) :=
  h.trans (h.lists s s.high _ s.retargets) <| h.trans (h.fold _ (fun s n => h.idle s n) _ _) (h.step _ n r _)

theorem veerStep (s : State) (k : Nat × Nat) : R s (s.veerStep k) := by
  unfold State.veerStep
  split
  · exact h.refl s
  · split
    · exact h.cancelStep s _ _
    · exact h.cancelStep s _ _
    · exact h.unqueueStep s _ _
    all_goals exact h.refl s

theorem cancelUnreleased (s : State) : R s s.cancelUnreleased := h.fold _ h.veerStep _ s

theorem returnStep (s : State) (k : Nat × Nat) : R s (s.returnStep k) := by
  unfold State.returnStep
  split
  · exact h.refl s
  · split
    · exact h.cancelStep s _ _
    · exact h.refl s

theorem queueLow (s : State) (n r node : Nat) (t : Int) : R s (s.queueLow n r node t) :=
  h.trans (h.live s node _ (by intro _; exact ⟨rfl, rfl, rfl, rfl, rfl⟩)) (h.lists _ (State.high _) _ (State.retargets _))

theorem releaseMember (ts : List (Nat × Int)) (n r : Nat) (s : State) (node : Nat) :
    R s (State.releaseMember ts n r s node) := by
  unfold State.releaseMember
  split
  · exact h.refl s
  · split
    · exact h.refl s
    · split
      · exact h.step s n r _
      · split
        · exact h.trans (h.step s n r _) (h.queueLow _ n r node _)
        · exact h.step s n r _

theorem releaseStep (s : State) (n r : Nat) : R s (s.releaseStep n r) := by
  unfold State.releaseStep
  split
  · exact h.refl s
  · split
    · exact h.refl s
    · rename_i w _ _ st _
      have h1 := h.trans (h.wave s n (fun x => x.releaseLatches st s.df s.uf)
        (fun w => by unfold Wave.releaseLatches; split <;> rfl))
        (h.step _ n r fun x => { x with forced := false, owesTest := false, owesDeadline := false })
      have h2 := h.trans h1 (h.fold _ (h.releaseMember w.targets n r) (s.members r) _)
      simp only
      split
      · exact h.trans h2 (h.enterDone _ n r)
      · exact h.trans h2 (h.step _ n r _)

theorem deadlineAction (s : State) (n r : Nat) : R s (s.deadlineAction n r) := by
  unfold State.deadlineAction
  split
  · exact h.refl s
  · split
    · exact h.step s n r _
    · exact h.skipStep s n r _

/-- A choice between candidates changes the draw counter at most. -/
theorem choose {s t : State} {l : List (Nat × Nat)} {k : Nat × Nat} (e : s.choose l = some (k, t)) : R s t := by
  match l, e with
  | [_], e => simp [State.choose] at e; rw [← e.2]; exact h.refl s
  | a :: b :: l, e => simp [State.choose] at e; rw [← e.2]; exact h.draw s _

theorem releaseLoop (fuel : Nat) (released : List Nat) (s : State) : R s (State.releaseLoop fuel released s) := by
  induction fuel generalizing released s with
  | zero => exact h.refl s
  | succ fuel ih =>
    unfold State.releaseLoop
    split
    · rename_i k s1 e
      exact h.trans (h.choose e) <| h.trans (h.releaseStep s1 _ _) <| h.trans (h.completeWaves _) (ih _ _)
    · split
      · rename_i k s1 e
        exact h.trans (h.choose e) <| h.trans (h.deadlineAction s1 _ _) (ih _ _)
      · exact h.refl s

theorem releaseTests (s : State) (released : List Nat) : R s (s.releaseTests released) := h.releaseLoop _ _ s

theorem grantedLow (s : State) (n r : Nat) : R s (s.grantedLow n r) := by
  unfold State.grantedLow
  split
  · exact h.refl s
  · rename_i st _
    have h2 : ∀ s1, R s s1 → R s (if st.state = .releasing ∧ s1.queuedFor n r = [] then
        s1.updStep n r fun x => { x with state := .moving } else s1) := by
      intro s1 h1
      split
      · exact h.trans h1 (h.step _ n r _)
      · exact h1
    refine h2 _ ?_
    split
    · split
      · exact h.trans (h.step s n r _) (h.trigger _ n r)
      · exact h.step s n r _
    · exact h.refl s

theorem freedLow (s : State) (n r : Nat) (k : FreeKind) : R s (s.freedLow n r k) := by
  unfold State.freedLow
  simp only
  split
  · split
    · exact h.trans (h.step s n r _) <| h.trans (h.enterDone _ n r) (h.completeWaves _)
    · exact h.step s n r _
  · exact h.step s n r _

theorem movedLow (s : State) (n r : Nat) : R s (s.movedLow n r) := h.step s n r _

theorem judgeNeutral (s : State) : R s s.judgeNeutral := by
  unfold State.judgeNeutral
  split <;> exact h.neutral s _

theorem grantedNeutral (s : State) (r : Nat) : R s (s.grantedNeutral r) := by
  unfold State.grantedNeutral
  split
  · exact h.refl s
  · exact h.updNeutral s r _

theorem freedNeutral (s : State) (r : Nat) (k : FreeKind) : R s (s.freedNeutral r k) :=
  h.trans (h.updNeutral s r _) (h.judgeNeutral _)

theorem tellGranted (s : State) (o : Option Owner) : R s (s.tellGranted o) := by
  unfold State.tellGranted
  split
  · exact h.grantedLow s _ _
  · exact h.grantedNeutral s _
  · exact h.refl s

theorem tellFreed (s : State) (o : Option Owner) (k : FreeKind) : R s (s.tellFreed o k) := by
  unfold State.tellFreed
  split
  · exact h.freedLow s _ _ k
  · exact h.freedNeutral s _ k
  · exact h.refl s

theorem tellMoved (s : State) (o : Option Owner) : R s (s.tellMoved o) := by
  unfold State.tellMoved
  split
  · exact h.movedLow s _ _
  all_goals exact h.refl s

theorem grantNode (s : State) (n : Nat) (c : SlotClass) (free : s.freePlaces ≠ 0) (room : s.Room c) :
    R s (s.grantNode n c) := by
  have key : ∀ s0 : State, s0.freePlaces ≠ 0 → s0.Room c → R s0 (match s0.turbine? n with
      | none => s0
      | some t =>
        (((((s0.sendD (s0.setpointFrame n (s0.ownerSet t.live.owner)
          (t.config.format.command (t.live.target.getD 0)))).updLive n fun l =>
            { l with
              move := .moving, slot := some c, commanded := some (t.live.target.getD 0),
              deadline := .pending }).takeSlot c).place
          (t.deadlineRequest (t.live.target.getD 0))).tellGranted t.live.owner)) := by
    intro s0 f0 r0
    split
    · exact h.refl s0
    · refine h.trans (h.sendD s0 _ f0) <| h.trans (h.live _ n _ (by intro _; exact ⟨rfl, rfl, rfl, rfl, rfl⟩)) <|
        h.trans (h.take _ c ?_) <| h.trans (h.place _ _) (h.tellGranted _ _)
      cases c <;> exact r0
  cases c with
  | high => exact h.trans (h.lists s s.high.tail s.low s.retargets) (key _ free room)
  | low => exact h.trans (h.lists s s.high s.low.tail s.retargets) (key _ free room)

theorem retargetNode (s : State) (n : Nat) (free : s.freePlaces ≠ 0) : R s (s.retargetNode n) := by
  refine h.trans (h.lists s s.high s.low s.retargets.tail) ?_
  unfold State.retargetNode
  simp only
  split
  · exact h.refl _
  · exact h.trans (h.sendD _ _ free) <| h.trans (h.live _ n _ (by intro _; exact ⟨rfl, rfl, rfl, rfl, rfl⟩)) (h.place _ _)

theorem arbiterStep {s t : State} (e : s.arbiterStep = some t) : R s t := by
  unfold State.arbiterStep at e
  split at e
  · split at e
    · cases e
    · rename_i free; cases e; exact h.retargetNode s _ free
  · cases g : s.grantable with
    | none => simp [g] at e
    | some p => simp [g] at e; rw [← e]; exact h.grantNode s _ _ (State.grantable_free g) (State.grantable_room g)

theorem arbiterLoop (fuel : Nat) (s : State) : R s (State.arbiterLoop fuel s) := by
  induction fuel generalizing s with
  | zero => exact h.refl s
  | succ fuel ih =>
    unfold State.arbiterLoop
    split
    · rename_i t e; exact h.trans (h.arbiterStep e) (ih t)
    · exact h.refl s

theorem serveArbiter (s : State) : R s s.serveArbiter := h.arbiterLoop _ s

theorem freeSlot (s : State) (n : Nat) (k : FreeKind) : R s (s.freeSlot n k) := by
  unfold State.freeSlot
  split
  · exact h.refl s
  · rename_i t _
    have h1 := h.trans (h.withdraw s (.deadline n)) (h.idle _ n)
    simp only
    split
    · exact h.trans h1 <| h.trans (h.give _ _) (h.tellFreed _ _ k)
    · exact h.trans h1 (h.tellFreed _ _ k)

theorem arbiterReport (s : State) (t : Turbine) : R s (s.arbiterReport t) := by
  unfold State.arbiterReport
  split
  · exact h.freeSlot s _ _
  · exact h.freeSlot s _ _
  · exact h.tellMoved s _
  · exact h.trans (h.lists s s.high s.low _) (h.freeSlot _ _ _)
  all_goals exact h.refl s

theorem stall (s : State) (t : Turbine) : R s (s.stall t) :=
  h.trans (h.freeSlot s _ _) <| h.trans (h.live _ _ _ (by intro _; exact ⟨rfl, rfl, rfl, rfl, rfl⟩)) <|
    h.trans (h.tally _ _ (by intro _; exact ⟨rfl, rfl, rfl, rfl⟩)) (h.notify _ _)

theorem endToPass (s : State) : R s s.endToPass :=
  h.trans (h.mode s _ _) <| h.trans (h.lapse _) (h.notify _ _)

theorem judgeEnd (s : State) : R s s.judgeEnd := by
  unfold State.judgeEnd
  split
  · exact h.endToPass s
  · split
    · exact h.endToPass s
    · exact h.refl s

/-- The end of an event propagates. -/
theorem settleAfter (s : State) (released : List Nat) : R s (s.settleAfter released) :=
  h.trans (h.releaseTests s released) <| h.trans (h.judgeEnd _) (h.serveArbiter _)

theorem settle (s : State) : R s s.settle := h.settleAfter s []

/-! ### The neutral context -/

theorem supersede (s : State) (o : Option Owner) : R s (s.supersede o) := by
  unfold State.supersede
  split
  · exact h.step s _ _ _
  all_goals exact h.refl s

theorem retarget (s : State) (t : Turbine) (r : Nat) : R s (s.retarget t r) :=
  h.trans (h.withdraw s (.deadline t.node)) <| h.trans (h.supersede _ t.live.owner) <|
    h.trans (h.live _ t.node _ (by intro _; exact ⟨rfl, rfl, rfl, rfl, rfl⟩)) <| h.trans (h.shift _)
      (h.lists _ (State.high _) (State.low _) _)

theorem moveToHigh (s : State) (t : Turbine) (r : Nat) : R s (s.moveToHigh t r) :=
  h.trans (h.supersede s t.live.owner) <|
    h.trans (h.live _ t.node _ (by intro _; exact ⟨rfl, rfl, rfl, rfl, rfl⟩)) (h.lists _ _ _ (State.retargets _))

theorem queueHigh (s : State) (t : Turbine) (r : Nat) : R s (s.queueHigh t r) :=
  h.trans (h.live s t.node _ (by intro _; exact ⟨rfl, rfl, rfl, rfl, rfl⟩)) (h.lists _ _ (State.low _) (State.retargets _))

theorem neutralMember (r : Nat) (s : State) (n : Nat) : R s (State.neutralMember r s n) := by
  unfold State.neutralMember
  split
  · exact h.refl s
  · rename_i t _
    have h1 := h.updNeutral s r fun n => { n with needed := n.needed + 1 }
    simp only
    split
    · exact h.trans h1 (h.retarget _ t r)
    · split
      · exact h.trans h1 (h.moveToHigh _ t r)
      · exact h1
    · split
      · exact h.trans h1 (h.updNeutral _ r _)
      · split
        · exact h.trans h1 (h.updNeutral _ r _)
        · exact h.trans h1 (h.queueHigh _ t r)
    all_goals exact h1

theorem freshNeutral (s : State) (r : Nat) : R s (s.freshNeutral r) :=
  h.trans (h.skipAt s r .neutral) <| h.trans (h.neutral _ _) <|
    h.trans (h.fold _ (h.neutralMember r) _ _) <|
    h.trans (h.fold _ (fun s n => h.enterDone s n r) _ _) (h.updNeutral _ r _)

theorem gainNeutral (s : State) (r : Nat) : R s (s.gainNeutral r) := by
  unfold State.gainNeutral
  split
  · split
    · exact h.freshNeutral s r
    · exact h.skipAt s r _
  · exact h.freshNeutral s r

/-- The entry to RETURN, after the FORMING wave is discarded. -/
theorem enterReturn (hd : ∀ s : State, R s s.discardForming) (s : State) (c : ModeCause) (n : NeutralCause) :
    R s (s.enterReturn c n) :=
  h.trans (h.mode s _ _) <| h.trans (hd _) <| h.trans (h.fold _ h.returnStep _ _) <|
    h.trans (h.neutral _ _) <| h.trans (h.fold _ h.gainNeutral _ _) <| h.trans (h.judgeNeutral _) <|
    h.trans (h.completeWaves _) (h.notify _ _)

/-- The entry to DRAIN, after the FORMING wave is discarded. -/
theorem enterDrain (hd : ∀ s : State, R s s.discardForming) (s : State) : R s s.enterDrain :=
  h.trans (h.mode s _ _) <| h.trans (hd _) <| h.trans (h.cancelUnreleased _) <|
    h.trans (h.completeWaves _) (h.notify _ _)

/-- A veer event, whose own count is the veers counter's. -/
theorem veer (ht : ∀ s : State, R s (s.tally fun c => { c with veers := c.veers + 1 })) (s : State) (old new : Nat) :
    R s (s.veer old new) :=
  h.trans (h.cancelUnreleased s) <| h.trans (h.completeWaves _) <| h.trans (ht _) (h.notify _ _)

end Propagates

end Sys2Proof.Machine
end

