-- ==== Sys2Proof/Laws/Bridge.lean ====
section
/-! SUPPORT. The operations of the machine agree with what Safety.lean writes out from the rules: a frame offered, a notice, an answer, a
forwarded frame, the lapse timer's hearing and the delivery of a request; and what an event's end is where nothing follows. -/

namespace Sys2Proof.Machine

theorem State.sendU_eq_offered (s : State) (f : EthFrame) : s.sendU f = offered f s := by
  unfold State.sendU offered ownFrames
  split <;> simp_all

theorem State.notify_eq_noticed (s : State) (n : Notice) : s.notify n = noticed n s := by
  simp only [State.notify, State.sendU_eq_offered, State.noticeFrame, noticed]

theorem State.reply_ok (s : State) (e : Env) (code : Byte) (fields : List Byte) :
    s.reply e code .ok fields = answered e code .ok fields s := by
  simp [State.reply, State.sendU_eq_offered, State.replyFrame, answered]

theorem State.reply_refused (s : State) (e : Env) (code : Byte) (r : Result) :
    s.reply e code r [] = answered e code r [] s := by
  simp [State.reply, State.sendU_eq_offered, State.replyFrame, answered]

theorem State.forward_eq_forwarded (s : State) (p : Port) (f : EthFrame) : s.forward p f = forwarded p f s := by
  cases p
  · simp only [State.forward, forwarded, forwardedFrames]
    by_cases h : s.queueD.countP (fun x => !x.own) < 24 <;> simp [h]
  · simp only [State.forward, forwarded, forwardedFrames]
    by_cases h : s.queueU.countP (fun x => !x.own) < 28 <;> simp [h]

theorem State.heard_u (s : State) (src : Byte) : s.heard .u (src == 0) = heardFrom src s := by
  unfold State.heard State.restartLapse heardFrom
  by_cases h : src = 0 <;> cases s.mode <;> simp [h]

theorem State.heard_d (s : State) (b : Bool) : s.heard .d b = s := rfl

theorem heardFrom_eq (src : Byte) (s : State) : heardFrom src s = if src = 0 then s.restartLapse else s := by
  unfold State.restartLapse heardFrom
  by_cases h : src = 0 <;> cases s.mode <;> simp [h]

theorem takes_carries {s : State} {p : Port} (h : Takes p s) : s.carries p = true := by
  obtain ⟨h1, h2⟩ := h
  cases p <;> simp_all [State.carries]

theorem not_takes_carries {s : State} {p : Port} (h : ¬Takes p s) : s.carries p = false := by
  cases p <;> simp_all [State.carries, Takes]

/-- Only the lapse timer hears a frame. -/
theorem heardFrom_lapse (src : Byte) (s : State) :
    heardFrom src s = { s with lapse := (heardFrom src s).lapse, lapseDue := (heardFrom src s).lapseDue } := by
  unfold heardFrom; split <;> rfl

@[simp] theorem heardFrom_mode (src : Byte) (s : State) : (heardFrom src s).mode = s.mode := by
  rw [heardFrom_lapse]

@[simp] theorem heardFrom_params (src : Byte) (s : State) : (heardFrom src s).params = s.params := by
  rw [heardFrom_lapse]

@[simp] theorem heardFrom_nodeAddr (src : Byte) (s : State) : (heardFrom src s).nodeAddr = s.nodeAddr := by
  rw [heardFrom_lapse]

@[simp] theorem heardFrom_turbines (src : Byte) (s : State) : (heardFrom src s).turbines = s.turbines := by
  rw [heardFrom_lapse]

/-- A request that reaches the unit is answered on the state its delivery leaves. -/
theorem State.request_served {s : State} (h : Served s) (e : Env) (q : Request) :
    s.request e q = (delivered e s).execute e q := by
  obtain ⟨h1, h2, h3⟩ := h
  have ha : (heardFrom e.src s).addressed (heardFrom e.src s).nodeAddr = true := by
    simp only [State.addressed, heardFrom_nodeAddr, bne_iff_ne, Bool.and_eq_true, beq_self_eq_true, true_and]
    exact ⟨h2, h3⟩
  simp only [State.request, State.manage, takes_carries h1, if_true, ← heardFrom_eq, ha, State.answer, delivered]

/-- Any request bytes that reach the unit are answered on the state their delivery leaves. -/
theorem State.manage_served {s : State} (h : Served s) (e : Env) (code : Byte) (fields : List Byte) (rd : Reading) :
    s.manage e code fields rd =
      match rd with
      | .unknown => (delivered e s).reply e code .unknown []
      | .short => (delivered e s).reply e code .range []
      | .request q => (delivered e s).execute e q := by
  obtain ⟨h1, h2, h3⟩ := h
  have ha : (heardFrom e.src s).addressed (heardFrom e.src s).nodeAddr = true := by
    simp only [State.addressed, heardFrom_nodeAddr, bne_iff_ne, Bool.and_eq_true, beq_self_eq_true, true_and]
    exact ⟨h2, h3⟩
  cases rd <;> simp only [State.manage, takes_carries h1, if_true, ← heardFrom_eq, ha, State.answer, delivered]

/-- The first release of a wave in an event is never held back. -/
@[simp] theorem mayRelease_nil (num : Nat) : mayRelease [] num = true := rfl

/-- A wave of which no step has released in the event may release. -/
theorem mayRelease_of_not_mem {released : List Nat} {num : Nat} (h : num ∉ released) : mayRelease released num = true := by
  simp [mayRelease, h]

/-- A requester's entry is withdrawn from the divider as the rules say of any set of requesters. -/
theorem Divider.withdraw_eq (d : Divider) (q : Requester) : d.withdraw q = withdrawn (fun x => x == q) d := by
  simp [Divider.withdraw, withdrawn, bne]

/-- Withdrawals one after another withdraw every requester that one of them names. -/
theorem withdrawn_withdrawn (a b : Requester → Bool) (d : Divider) :
    withdrawn b (withdrawn a d) = withdrawn (fun q => a q || b q) d := by
  have h : ∀ o : Option Service,
      ((o.map fun v => if a v.entry.requester then { v with discard := true } else v).map fun v =>
        if b v.entry.requester then { v with discard := true } else v) =
      o.map fun v => if a v.entry.requester || b v.entry.requester then { v with discard := true } else v := by
    rintro (_ | ⟨e, q, x⟩)
    · rfl
    · cases ha : a e.requester <;> cases hb : b e.requester <;> simp [ha, hb]
  simp [withdrawn, List.filter_filter, h, Bool.and_comm]

/-- Withdrawing nothing changes nothing. -/
@[simp] theorem withdrawn_none (d : Divider) : withdrawn (fun _ => false) d = d := by
  cases d; simp [withdrawn]

/-- With no step HOLDING, no release test can release or act. -/
theorem State.releaseTests_noHolding {s : State} (h : NoHolding s) (released : List Nat) : s.releaseTests released = s := by
  have hc : ∀ n r, s.canRelease n r = false := by
    intro n r
    unfold State.canRelease
    split
    · rfl
    · rename_i w hw
      have hm : w ∈ s.waves := List.mem_of_find?_eq_some hw
      split
      · simp
      · rename_i st hst
        have := h w hm st (List.mem_of_find?_eq_some hst)
        simp [this]
  have ha : ∀ n r, s.owesAction n r = false := by
    intro n r
    unfold State.owesAction
    split
    · rfl
    · rename_i w hw
      have hm : w ∈ s.waves := List.mem_of_find?_eq_some hw
      split
      · simp
      · rename_i st hst
        have := h w hm st (List.mem_of_find?_eq_some hst)
        simp [this]
  have e1 : s.releasable released = [] := by simp [State.releasable, hc]
  have e2 : s.actionable = [] := by simp [State.actionable, ha]
  unfold State.releaseTests
  rw [State.releaseLoop]
  simp [State.choose, e1, e2]

/-- With nothing queued, the arbiter has nothing to serve. -/
theorem State.serveArbiter_nothing {s : State} (h : NothingQueued s) : s.serveArbiter = s := by
  obtain ⟨h1, h2, h3⟩ := h
  simp [State.serveArbiter, h1, h2, h3, State.arbiterLoop]

theorem State.judgeEnd_stands {s : State} (h : ModeStands s) : s.judgeEnd = s := by
  obtain ⟨h1, h2⟩ := h
  unfold State.judgeEnd State.drainOver State.returnOver
  have e1 : (s.mode == .drain && s.waves.isEmpty && !s.neutral.active) = false := by
    by_contra c; apply h1; simpa [and_assoc] using c
  have e2 : (s.mode == .returning && !s.neutral.active) = false := by
    by_contra c; apply h2; simpa using c
  simp [e1, e2]

/-- Nothing follows at the end of an event in a calm state. -/
theorem State.settle_calm {s : State} (h : Calm s) : s.settle = s := by
  obtain ⟨h1, h2, h3⟩ := h
  unfold State.settle State.settleAfter
  rw [State.releaseTests_noHolding h1, State.judgeEnd_stands h3, State.serveArbiter_nothing h2]

/-- Serving the arbiter, where it can place a frame, places that frame and serves on. -/
theorem State.serveArbiter_step {s t : State} (h : s.arbiterStep = some t)
    (hl : t.retargets.length + t.high.length + t.low.length + 1 = s.retargets.length + s.high.length + s.low.length) :
    s.serveArbiter = t.serveArbiter := by
  unfold State.serveArbiter
  rw [← hl, State.arbiterLoop, h]

end Sys2Proof.Machine
end

