-- ==== Sys2Proof/Laws/Ops.lean ====
section
/-! SUPPORT. What the lookups find after the named operations: a live record, a row, a wave, a step, a plan slot, the divider's list. -/

namespace Sys2Proof.Machine

/-- The lookup in a list after a change that keeps the key of every entry. -/
theorem find?_map_key {α β : Type} [DecidableEq β] (key : α → β) (g : α → α) (hg : ∀ a, key (g a) = key a) (k : β)
    (l : List α) : (l.map g).find? (fun a => key a == k) = (l.find? fun a => key a == k).map g := by
  induction l with
  | nil => rfl
  | cons a l ih =>
    simp only [List.map_cons, List.find?_cons, hg]
    by_cases h : (key a == k) = true
    · simp [h]
    · simp only [Bool.not_eq_true] at h; simp [h, ih]

/-- A change of one live record leaves every entry in its place, and every other record as it is (R5). -/
theorem State.turbine?_updLive (s : State) (n m : Nat) (g : Live → Live) :
    (s.updLive n g).turbine? m =
      (s.turbine? m).map fun t => if t.node = n then { t with live := g t.live } else t :=
  find?_map_key (fun t : Turbine => t.node) _ (fun t => by split <;> rfl) m s.turbines

/-- A change of one wave record that keeps its number is found at that number alone. -/
theorem State.wave?_updWave (s : State) (n m : Nat) (g : Wave → Wave) (hg : ∀ w, (g w).num = w.num) :
    (s.updWave n g).wave? m = (s.wave? m).map fun w => if w.num = n then g w else w :=
  find?_map_key (fun w : Wave => w.num) _ (fun w => by split <;> simp [hg]) m s.waves

/-- A change of one step that keeps its row is found at that row alone. -/
theorem Wave.step?_updStep (w : Wave) (r q : Nat) (g : WaveStep → WaveStep) (hg : ∀ x, (g x).row = x.row) :
    (w.updStep r g).step? q = (w.step? q).map fun x => if x.row = r then g x else x :=
  find?_map_key (fun x : WaveStep => x.row) _ (fun x => by split <;> simp [hg]) q w.steps

/-- A change of one row's record leaves every other row as it is (R18, R19). -/
theorem State.row_updRow (s : State) (r q : Nat) (g : Row → Row) (hr : r < 16) :
    (s.updRow r g).row q = if q = r then g (s.row r) else s.row q := by
  simp only [State.row, State.updRow]
  by_cases h : q = r
  · subst h; simp [hr]
  · simp [h, Ne.symm h]

/-- Setting a row's mask flag sets that flag alone (R19). -/
theorem State.masked_setMask (s : State) (r q : Nat) (b : Bool) (hr : r < 16) :
    (s.setMask r b).masked q = if q = r then b else s.masked q := by
  simp only [State.masked, State.setMask, State.row_updRow s r q _ hr]
  split <;> rfl

/-- Setting a row's mask flag leaves every member list as it is (R19). -/
theorem State.members_setMask (s : State) (r q : Nat) (b : Bool) (hr : r < 16) :
    (s.setMask r b).members q = s.members q := by
  simp only [State.members, State.setMask, State.row_updRow s r q _ hr]
  split
  · rename_i h; simp [h]
  · rfl

/-- A plan slot after a load or a drop: the sector's slot alone has changed (R51, R52). -/
theorem State.plan?_putPlan (s : State) (k q : Nat) (p : Option Plan) (hk : k < 24) :
    (s.putPlan k p).plan? q = if q = k then p else s.plan? q := by
  simp only [State.plan?, State.putPlan]
  by_cases h : q = k
  · subst h; simp [hk]
  · simp [h, Ne.symm h]

/-- A placed request is the last entry of the list, or in service at once (R106). -/
theorem Divider.place_cases (d : Divider) (e : DivEntry) :
    (d.stage = none ∧ d.list = [] ∧ d.place e = ⟨[], some ⟨e, 0, false⟩⟩) ∨
      ((d.stage ≠ none ∨ d.list ≠ []) ∧ d.place e = ⟨d.list ++ [e], d.stage⟩) := by
  obtain ⟨l, st⟩ := d
  cases st with
  | none => cases l <;> simp [Divider.place]
  | some v => simp [Divider.place]

/-- A withdrawn requester has no entry left in the list (R115). -/
theorem Divider.withdraw_list (d : Divider) (q : Requester) : ∀ e ∈ (d.withdraw q).list, e.requester ≠ q := by
  intro e he
  simpa using (List.mem_filter.1 he).2

end Sys2Proof.Machine
end

