-- ==== Sys2Proof/Laws/Steady.lean ====
section
/-! SUPPORT. Three relations that the propagation of an event keeps: what it leaves alone (`Steady`), the quiet timer, the growth of U's queue
at its tail, and the wave records that it can only remove. -/

namespace Sys2Proof.Machine

/-- A change of a live record's move side leaves what reports, counts and loads wrote. -/
theorem Turbine.reported_updLive (s : State) (n : Nat) (g : Live → Live) (hg : Live.Reported g) :
    (s.updLive n g).turbines.map Turbine.reported = s.turbines.map Turbine.reported := by
  simp only [State.updLive, List.map_map]
  apply List.map_congr_left
  intro t _
  simp only [Function.comp]
  split
  · obtain ⟨h1, h2, h3, h4, h5⟩ := hg t.live
    simp [Turbine.reported, h1, h2, h3, h4, h5]
  · rfl

theorem Steady.refl (s : State) : Steady s s := by constructor <;> rfl

theorem Steady.trans {s t u : State} (a : Steady s t) (b : Steady t u) : Steady s u where
  relayClosed := b.relayClosed.trans a.relayClosed
  stormLine := b.stormLine.trans a.stormLine
  yholdLine := b.yholdLine.trans a.yholdLine
  nodeAddr := b.nodeAddr.trans a.nodeAddr
  station := b.station.trans a.station
  supervisor := b.supervisor.trans a.supervisor
  params := b.params.trans a.params
  turbines := b.turbines.trans a.turbines
  rows := b.rows.trans a.rows
  sources := b.sources.trans a.sources
  filter := b.filter.trans a.filter
  mark := b.mark.trans a.mark
  sector := b.sector.trans a.sector
  plans := b.plans.trans a.plans
  waveCounter := b.waveCounter.trans a.waveCounter
  timeBase := b.timeBase.trans a.timeBase
  storm := b.storm.trans a.storm
  linkU := b.linkU.trans a.linkU
  linkD := b.linkD.trans a.linkD
  countersU := b.countersU.trans a.countersU
  countersD := b.countersD.trans a.countersD
  discardedManage := b.discardedManage.trans a.discardedManage
  closed := b.closed.trans a.closed
  folded := b.folded.trans a.folded
  dropped := b.dropped.trans a.dropped
  veers := b.veers.trans a.veers
  estimateDue := b.estimateDue.trans a.estimateDue
  pending := b.pending.trans a.pending

/-- Propagation leaves alone what `Steady` lists. -/
theorem steady_propagates : Propagates Steady where
  refl := Steady.refl
  trans := Steady.trans
  live s n g hg := { Steady.refl s with turbines := Turbine.reported_updLive s n g hg }
  wave s _ _ _ := { Steady.refl s with }
  unwave s _ := { Steady.refl s with }
  neutral s _ := { Steady.refl s with }
  divider s _ := { Steady.refl s with }
  lists s _ _ _ := { Steady.refl s with }
  take s _ _ := { Steady.refl s with }
  give s _ := { Steady.refl s with }
  shift s := { Steady.refl s with }
  sendU s _ := { Steady.refl s with }
  sendD s _ _ := { Steady.refl s with }
  tally s _ hg :=
    { Steady.refl s with
      closed := (hg s.counters).1, folded := (hg s.counters).2.1, dropped := (hg s.counters).2.2.1
      veers := (hg s.counters).2.2.2 }
  draw s _ := { Steady.refl s with }
  mode s _ _ := { Steady.refl s with }
  lapse s := { Steady.refl s with }

/-- The discard of the FORMING wave leaves alone what `Steady` lists. -/
theorem steady_discardForming (s : State) : Steady s s.discardForming := { Steady.refl s with }

/-- The end of an event leaves alone what `Steady` lists. -/
theorem steady_settle (s : State) : Steady s s.settle := steady_propagates.settle s

/-- The entry to RETURN leaves alone what `Steady` lists. -/
theorem steady_enterReturn (s : State) (c : ModeCause) (n : NeutralCause) : Steady s (s.enterReturn c n) :=
  steady_propagates.enterReturn steady_discardForming s c n

/-- The entry to DRAIN leaves alone what `Steady` lists. -/
theorem steady_enterDrain (s : State) : Steady s s.enterDrain :=
  steady_propagates.enterDrain steady_discardForming s

/-- Propagation never touches the quiet timer. -/
theorem quiet_propagates : Propagates fun s t => t.quiet = s.quiet where
  refl _ := rfl
  trans a b := b.trans a
  live _ _ _ _ := rfl
  wave _ _ _ _ := rfl
  unwave _ _ := rfl
  neutral _ _ := rfl
  divider _ _ := rfl
  lists _ _ _ _ := rfl
  take _ _ _ := rfl
  give _ _ := rfl
  shift _ := rfl
  sendU _ _ := rfl
  sendD _ _ _ := rfl
  tally _ _ _ := rfl
  draw _ _ := rfl
  mode _ _ _ := rfl
  lapse _ := rfl

/-- U's queue only grows at its tail while an event propagates. -/
theorem queueU_propagates : Propagates fun s t => ∃ rest, t.queueU = s.queueU ++ rest where
  refl s := ⟨[], by simp⟩
  trans := by
    rintro s t u ⟨a, ha⟩ ⟨b, hb⟩
    exact ⟨a ++ b, by rw [hb, ha, List.append_assoc]⟩
  live s _ _ _ := ⟨[], by simp [State.updLive]⟩
  wave s _ _ _ := ⟨[], by simp [State.updWave]⟩
  unwave _ _ := ⟨[], by simp⟩
  neutral _ _ := ⟨[], by simp⟩
  divider _ _ := ⟨[], by simp⟩
  lists _ _ _ _ := ⟨[], by simp⟩
  take _ _ _ := ⟨[], by simp [State.takeSlot]⟩
  give _ _ := ⟨[], by simp [State.giveSlot]⟩
  shift _ := ⟨[], by simp [State.shiftSlot]⟩
  sendU s f := by
    unfold State.sendU
    by_cases c : ownFrames s.queueU < 4
    · exact ⟨[⟨true, f⟩], by simp [c]⟩
    · exact ⟨[], by simp [c]⟩
  sendD _ _ _ := ⟨[], by simp [State.sendD]⟩
  tally _ _ _ := ⟨[], by simp [State.tally]⟩
  draw _ _ := ⟨[], by simp⟩
  mode _ _ _ := ⟨[], by simp [State.setMode]⟩
  lapse _ := ⟨[], by simp [State.stopLapse]⟩

/-- Propagation removes wave records and changes their steps, references and latches, but adds no record and changes no record's number,
set, state, sector or target map. -/
theorem waveKeys_propagates : Propagates fun s t => (t.waves.map Wave.key).Sublist (s.waves.map Wave.key) where
  refl _ := List.Sublist.refl _
  trans a b := b.trans a
  live _ _ _ _ := List.Sublist.refl _
  wave s n g hg := by
    have e : (s.updWave n g).waves.map Wave.key = s.waves.map Wave.key := by
      simp only [State.updWave, List.map_map]
      apply List.map_congr_left
      intro w _
      simp only [Function.comp]
      split
      · exact hg w
      · rfl
    rw [e]
  unwave s p := by
    change ((s.waves.filter p).map Wave.key).Sublist _
    exact List.filter_sublist.map _
  neutral _ _ := List.Sublist.refl _
  divider _ _ := List.Sublist.refl _
  lists _ _ _ _ := List.Sublist.refl _
  take _ _ _ := List.Sublist.refl _
  give _ _ := List.Sublist.refl _
  shift _ := List.Sublist.refl _
  sendU _ _ := List.Sublist.refl _
  sendD _ _ _ := List.Sublist.refl _
  tally _ _ _ := List.Sublist.refl _
  draw _ _ := List.Sublist.refl _
  mode _ _ _ := List.Sublist.refl _
  lapse _ := List.Sublist.refl _

end Sys2Proof.Machine
end

