-- ==== Sys2Proof/WellFormed.lean ====
section
/-! DEFINITION. Which commands are well formed: an operand that names a node, a wave or a row names one that can exist, a
frame's body fits the 1024 bytes of R163, and an arriving frame's payload the 1500 bytes of notes/assumptions/27.md. -/

namespace Sys2Proof

/-- The eighteen request codes of R174. -/
def knownCode (c : Byte) : Bool := 1 ≤ c.toNat && c.toNat ≤ 18

/-- The body bytes of a LOAD PLAN request: code, tag, the ten fixed bytes and seven for each entry (R174). -/
def PlanReq.bodyLength (q : PlanReq) : Nat := 11 + 7 * q.entries.length

/-- A command is well formed when its names are in range (R1: nodes 1 to 254; R56: wave numbers 0 to 255; R18: rows 0 to
15), its body fits a frame (R163), and an unknown request's code is in fact none of the eighteen (R175). PRESUMED: an arriving frame's
payload is at most 1500 bytes, Ethernet's bound, where the spec gives none (R162); no meaning tests it (notes/assumptions/27.md). -/
def Instr.wf : Instr → Bool
  | .deadlineExpiry n => 1 ≤ n && n ≤ 254
  | .aReached w r | .pReached w r | .stepRelease w r => w < 256 && r < 16
  | .waveCompletion w => w < 256
  | .frameReceived _ f => f.payload.length ≤ 1500
  | .setpointFrame _ items => 1 ≤ items.length && items.length ≤ 256
  | .loadSources _ _ es => es.length ≤ 255
  | .loadPlan _ q => q.bodyLength ≤ 1024
  | .unknownRequest _ c fs => !knownCode c && fs.length ≤ 1022
  | .powerOn .. | .rstnHold | .count | .estimateStep | .quietTimerExpiry | .lapseExpiry
  | .reportFrame .. | .metFrame .. | .status .. | .setParam .. | .getParam .. | .loadTurbine ..
  | .dropTurbine .. | .dropPlan .. | .readTurbine .. | .readRow .. | .readWave .. | .readNeutral ..
  | .readPlan .. | .readCounts .. | .modeSteer .. | .stopKeep .. | .stopNeutral .. | .neutral ..
  | .maskSet .. | .maskClear .. | .restart .. | .stormLineChange .. | .yawHoldChange ..
  | .linkLoss .. | .linkReturn .. | .dividerArrival | .dividerServiceStart
  | .transmitCompletion .. | .grant | .retargetFrame | .drainEnd | .returnEnd => true

end Sys2Proof
end

