-- ==== Sys2Proof/Tests/Slice0.lean ====
section
/-! SUPPORT. Tests: the ill-formed commands that WellFormed refuses, one or two small steps of each command with the values of the spec's own
examples, and for every statement of Obligations.lean a concrete state and operands that meet its hypotheses. -/

namespace Sys2Proof.Tests

open Sys2Proof Sys2Proof.Machine

/-! ### WellFormed: each check refuses -/

theorem test_wf_deadlineExpiry_0 : (Instr.deadlineExpiry 0).wf = false := by decide
theorem test_wf_deadlineExpiry_255 : (Instr.deadlineExpiry 255).wf = false := by decide
theorem test_wf_deadlineExpiry_254 : (Instr.deadlineExpiry 254).wf = true := by decide
theorem test_wf_aReached_wave : (Instr.aReached 256 0).wf = false := by decide
theorem test_wf_pReached_row : (Instr.pReached 0 16).wf = false := by decide
theorem test_wf_stepRelease_row : (Instr.stepRelease 255 16).wf = false := by decide
theorem test_wf_stepRelease_last : (Instr.stepRelease 255 15).wf = true := by decide
theorem test_wf_waveCompletion : (Instr.waveCompletion 256).wf = false := by decide
theorem test_wf_frame : (Instr.frameReceived .u ⟨0, 0, 0, List.replicate 1501 0, 0⟩).wf = false := by decide +kernel
theorem test_wf_setpoint_none : (Instr.setpointFrame ⟨0, 0, 0, 0, 0, 0⟩ []).wf = false := by decide
theorem test_wf_setpoint_many :
    (Instr.setpointFrame ⟨0, 0, 0, 0, 0, 0⟩ (List.replicate 257 ⟨1, 1, 0⟩)).wf = false := by decide +kernel
theorem test_wf_loadSources :
    (Instr.loadSources ⟨0, 0, 0, 0, 0, 0⟩ 255 (List.replicate 256 ⟨1, 1⟩)).wf = false := by decide +kernel
theorem test_wf_loadPlan :
    (Instr.loadPlan ⟨0, 0, 0, 0, 0, 0⟩ ⟨0, 512, 0, 0, 0, 1, List.replicate 145 ⟨0, 0, 0, 0, 0⟩⟩).wf = false := by
  decide +kernel
theorem test_wf_unknown_known : (Instr.unknownRequest ⟨0, 0, 0, 0, 0, 0⟩ 18 []).wf = false := by decide
theorem test_wf_unknown_19 : (Instr.unknownRequest ⟨0, 0, 0, 0, 0, 0⟩ 19 []).wf = true := by decide
theorem test_wf_unknown_long :
    (Instr.unknownRequest ⟨0, 0, 0, 0, 0, 0⟩ 0 (List.replicate 1023 0)).wf = false := by decide +kernel

/-- No row of the table gives bits, so no word spells a command. -/
theorem test_decode_none : decodeTableWord 32 0 = none := rfl

/-! ### A small site: two turbines in rows 0 and 1, and a plan for sector 0 -/

/-- The state after a command. -/
def after (c : Instr) (s : State) : State :=
  match exec c s with
  | .next t => t
  | .fault _ => s
  | .refused _ => s

/-- A supervisor's envelope: set 3, tag 9. -/
def env : Env := ⟨0, 5, 0, 3, 0, 9⟩

/-- The addressing of a frame from a node. -/
def from' (node : Byte) : Addr := ⟨0, 5, 0, node, 0, 0⟩

/-- The payload bytes of the last frame in U's queue. -/
def lastU (s : State) (n : Nat) : List Byte := ((s.queueU.getLast?.map fun f => f.frame.payload).getD []).take n

def node1 : Turbine := ⟨1, ⟨0, 0, .d1, 250, 30⟩, { applied := some 0, state := .producing, age := 0 }⟩
def node2 : Turbine := ⟨2, ⟨1, 0, .d1, 250, 40⟩, {}⟩

/-- A plan of two rows, with the figures of sector 17 in chapter 3. -/
def plan0 : Plan :=
  ⟨819, .release, 300, 3000, [⟨0, 0, .time, 0, .release⟩, ⟨1, 630, .settledSteady, 600, .skip⟩]⟩

def site : State :=
  { State.reset with
    turbines := [node1, node2]
    rows := #v[{ members := [1] }, { members := [2] }, {}, {}, {}, {}, {}, {}, {}, {}, {}, {}, {}, {}, {}, {}]
    plans := (Vector.replicate 24 none).set 0 (some plan0)
    sector := some 0, filter := some ⟨24320, 0⟩, mark := .fresh
    mode := .steer, cause := .request, lapse := .running 0 }

/-- A step at row 0 that stands at its compare A. -/
def step0 : WaveStep := { row := 0, state := .holding, hold := 300, cmpA := .value 300, gate := .time, action := .release }
def step1 : WaveStep := { row := 1, state := .waiting, spacing := 630, gate := .settledSteady, action := .skip }

/-- A RUNNING wave whose first step can release. -/
def wave7 : Wave :=
  { num := 7, set := 14, running := true, sector := some 0, targets := [(1, 80), (2, 40)], steps := [step0, step1]
    dRef := some 0, uRef := some 95 }

def waving : State := { site with waves := [wave7], waveCounter := 8 }

/-- The site with a FORMING wave whose quiet timer has expired. -/
def forming : State :=
  { site with
    waves := [{ num := 7, set := 14, targets := [(1, 80), (2, 40)] }], waveCounter := 8, quiet := some 20
    quietDue := true }

/-- Node 1 moving under a LOW slot for wave 7's first step, toward 80. -/
def moving1 : Turbine :=
  { node1 with live := { node1.live with
      commanded := some 80, move := .moving, slot := some .low, owner := some (.low 7 0), target := some 80
      deadline := .value 300 300 } }

/-- The site with node 1 moving and every other step of wave 7 ended. -/
def underWay : State :=
  { site with
    turbines := [moving1, node2], lowSlots := 1, motion := true, waveCounter := 8, timeBase := 300
    waves := [{ wave7 with steps :=
      [{ step0 with state := .moving, needed := 1, rel := some 300 }, { step1 with state := .skipped }] }] }

/-- Node 1 waiting in the LOW list for wave 7's first step. -/
def queued : State :=
  { site with
    turbines := [{ node1 with live := { node1.live with
      move := .queued, owner := some (.low 7 0), target := some 80 } }, node2]
    low := [1], waveCounter := 8
    waves := [{ wave7 with steps := [{ step0 with state := .releasing, needed := 1 }, step1] }] }

/-- Node 1 waiting in the HIGH list for the neutral step at its row. -/
def queuedHigh : State :=
  { site with
    turbines := [{ node1 with live := { node1.live with
      applied := some 40, move := .queued, owner := some (.neutral 0), target := some 0 } }, node2]
    high := [1], neutral := ⟨true, some .request, [{ row := 0, needed := 1 }]⟩ }

/-- Node 1 waiting for its retarget frame. -/
def retargeting : State :=
  { site with
    turbines := [{ node1 with live := { node1.live with
      applied := some 20, commanded := some 60, move := .retarget, slot := some .high, owner := some (.neutral 0)
      target := some 0 } }, node2]
    retargets := [1], highSlots := 1, motion := true
    neutral := ⟨true, some .request, [{ row := 0, state := .moving, needed := 1 }]⟩ }

/-- Row 0's wave 7 alone in DRAIN, all its steps ended. -/
def finishing : State :=
  { site with
    mode := .drain, cause := .stop, waveCounter := 8
    waves := [{ wave7 with steps := [{ step0 with state := .done }, { step1 with state := .cancelled }] }] }

/-- A site whose last estimate step is due, with one fresh MET source. -/
def sensing : State :=
  { site with sources := [{ kind := .met, node := 200, reading := some (98, 0), age := 4 }], estimateDue := true }

/-! ### The spec's worked figures -/

/-- The table of section 1.4: received values, and the same as yaw items under limit 250. -/
theorem test_formats :
    [Format.d1.receive 120, Format.d1.receive 400, Format.d1.receive 0x8000, Format.d2.receive 2604,
      Format.d2.receive (BitVec.ofInt 16 (-45)), Format.d2.receive 1235, Format.b1.receive 32700,
      Format.b1.receive 0, Format.b1.receive 65535] = [120, 300, -300, 260, -5, 124, -68, -300, 300] := by decide
theorem test_formats_commands :
    [Format.d2.command 250, Format.d2.command (-5), Format.d2.command 124, Format.b1.command (-68),
      Format.b1.command (-250), Format.b1.command 250] =
      [2500, BitVec.ofInt 16 (-50), 1240, 32700, 32518, 33018] := by decide
theorem test_formats_item : (TurbineConfig.mk 0 0 .d1 250 30).itemTarget 400 = 250 := by decide

/-- The trials of section 6.3: 829 for 630 m, 1618 for 1230 m, saturation at the smallest divisor. -/
theorem test_trials : [trials 64512000 77805 0, trials 125952000 77805 0, trials 838758400 512 0, trials 5 6 0] =
    [829, 1618, 65535, 0] := by decide

/-- The filters' worked figures of section 2.3. -/
theorem test_speedStep : [speedStep 23040 98 3, speedStep 23296 86 3, speedStep 23136 89 8, speedStep 23136 91 8] =
    [23296, 23136, 23134, 23136] := by decide
theorem test_directionStep : [directionStep 916480 20 4, directionStep 917120 20 4, directionStep 921040 40 4] =
    [917120, 917728, 128] := by decide

/-- The hysteresis around north of section 2.5. -/
theorem test_inBand : [inBand 3440 23 30, inBand 15 23 30, inBand 40 23 30, inBand 5 0 30, inBand 3560 0 30] =
    [true, true, false, true, false] := by decide

/-! ### One small step of each command -/

theorem test_powerOn : (site.powered 30 false false true true) = State.reset := rfl
theorem test_powerOn_straps :
    ((after (.powerOn 41 true false true false) site).nodeAddr, (after (.powerOn 41 true false true false) site).storm,
      (after (.powerOn 41 true false true false) site).linkD) = (41, true, false) := by decide
theorem test_rstnHold : (after .rstnHold site).relayClosed = true := by decide
theorem test_rstnHold_count : (after .count { site with relayClosed := true }).timeBase = 0 := by decide
theorem test_count : ((after .count waving).timeBase, (after .count waving).waves.map fun w => w.steps.map fun x => x.hold) =
    (1, [[301, 0]]) := by decide
theorem test_count_estimate : (after .count { site with timeBase := 9 }).estimateDue = true := by decide

/-- The estimate step with three sources of section 2.6. -/
def threeSources : State :=
  { site with
    sources := [{ kind := .met, node := 200, reading := some (101, 3540), age := 63 },
      { kind := .nacelle, node := 41, reading := some (92, 3570), age := 4 },
      { kind := .nacelle, node := 57, reading := some (97, 3585), age := 7 }]
    filter := some ⟨23136, 917120⟩, sector := some 23, estimateDue := true }
theorem test_estimateStep :
    ((after .estimateStep threeSources).filter, (after .estimateStep threeSources).sector) =
      (some ⟨23252, 916928⟩, some 23) := by decide
theorem test_estimateStep_veer : (after .estimateStep { threeSources with sector := some 3 }).counters.veers = 1 := by decide

theorem test_quietTimerExpiry :
    ((after .quietTimerExpiry forming).waves.map fun w => w.steps.map fun x => (x.row, x.state, x.spacing)) =
      [[(0, .holding, 0), (1, .waiting, 630)]] := by decide
theorem test_quietTimerExpiry_uncovered :
    lastU (after .quietTimerExpiry { forming with sector := some 5 }) 13 =
      [2, 6, 0, 30, 0, 0, 0, 5, 7, 7, 14, 5, 2] := by decide
theorem test_lapseExpiry :
    (after .lapseExpiry { site with lapse := .running 1200, lapseDue := true }).cause = .lapse := by decide
theorem test_lapseExpiry_pass :
    (after .lapseExpiry { site with mode := .pass, lapse := .running 9, lapseDue := true }).mode = .pass := by decide
theorem test_deadlineExpiry :
    ((after (.deadlineExpiry 1) underWay).counters.stalls, (after (.deadlineExpiry 1) underWay).lowSlots,
      ((after (.deadlineExpiry 1) underWay).turbine? 1).map fun t => t.live.stalled) = (1, 0, some true) := by decide
theorem test_deadlineExpiry_early : (after (.deadlineExpiry 1) { underWay with timeBase := 299 }).lowSlots = 1 := by decide
theorem test_aReached : ((after (.aReached 7 0) { waving with yholdLine := true }).step? 7 0).map (fun x => x.state) =
    some .releasing := by decide
theorem test_aReached_stale : ((after (.aReached 7 0) { waving with mark := .stale }).step? 7 0).map (fun x => x.state) =
    some .holding := by decide

/-- Wave 7 with its first step at compare P. -/
def atP (a : Action) : State :=
  { waving with
    mark := .stale
    waves := [{ wave7 with steps := [{ step0 with hold := 900, cmpP := some 900, action := a }, step1] }] }
theorem test_pReached_skip : (after (.pReached 7 0) (atP .skip)).counters.skips = 1 := by decide
theorem test_pReached_release : ((after (.pReached 7 0) (atP .release)).step? 7 0).map (fun x => x.forced) = some true := by
  decide

theorem test_frameReceived_bad : (after (.frameReceived .u ⟨0, 0, 0x0800, [1], 0⟩) site).queueD = [] := by
  decide +kernel
theorem test_frameReceived_foreign :
    (after (.frameReceived .u (sealFrame 0 0 0x0800 [1])) site).countersU = ⟨1, 0, 0⟩ := by decide +kernel

/-- Row 6's members of chapter 4, for the gathering example. -/
def gathering : State :=
  { site with
    turbines := [⟨101, ⟨6, 0, .d1, 250, 40⟩, {}⟩, ⟨102, ⟨6, 1, .d1, 250, 40⟩, {}⟩, ⟨103, ⟨6, 2, .d1, 250, 40⟩, {}⟩]
    waveCounter := 7 }
def frame1 : List Item := [⟨101, 1, 80⟩, ⟨102, 1, 80⟩, ⟨103, 1, 400⟩, ⟨90, 1, 50⟩]
theorem test_setpointFrame :
    ((after (.setpointFrame ⟨0, 0, 0, 0, 14, 0⟩ frame1) gathering).waves.map fun w => (w.num, w.set, w.targets)) =
      [(7, 14, [(101, 80), (102, 80), (103, 250)])] := by decide
theorem test_setpointFrame_left :
    ((after (.setpointFrame ⟨0, 0, 0, 0, 14, 0⟩ frame1) gathering).queueD.map fun f => f.frame.payload.take 12) =
      [[2, 1, 0, 0, 14, 0, 0, 4, 90, 1, 0, 50]] := by decide +kernel
/-- What a REPORT frame does but for its forwarding, which stands before or after the notices of its tap (notes/assumptions/6.md). -/
theorem test_reportFrame_settle :
    ((underWay.tapReport (from' 1) ⟨78, 0, 0, 0, 0⟩).lowSlots, (underWay.tapReport (from' 1) ⟨78, 0, 0, 0, 0⟩).counters.done) =
      (0, 1) := by decide
theorem test_reportFrame_moving :
    ((underWay.tapReport (from' 1) ⟨20, 1, 0, 0, 0⟩).step? 7 0).map (fun x => x.mov) = some (some 300) := by decide
/-- Wave 7's second step at the count that brings it to compare P, its STILL gate held back by node 1's motion. -/
def nearP (hold : Nat) (owed : Bool) : State :=
  { waving with
    turbines := [{ node1 with live := { node1.live with moving := true } }, node2]
    waves := [{ wave7 with steps := [{ step0 with state := .done },
      { step1 with state := .holding, gate := .still, hold, cmpA := .value 300, cmpP := some 900, owesDeadline := owed }] }] }
theorem test_count_reachesP : ((after .count (nearP 899 false)).step? 7 1).map (fun x => (x.hold, x.owesTest, x.owesDeadline)) =
    some (900, false, true) := by decide
/-- R85: the report that shows node 1 still releases the step, whose count to P is still to be taken. -/
theorem test_reportFrame_releases :
    (((nearP 900 true).tapReport (from' 1) ⟨0, 0, 0, 0, 0⟩).step? 7 1).map (fun x => (x.state, x.owesDeadline)) =
      some (.moving, false) := by decide +kernel
theorem test_metFrame :
    (after (.metFrame (from' 200) ⟨700, 3599, 0⟩) sensing).sources.map (fun x => x.reading) = [some (600, 3599)] := by decide
theorem test_metFrame_ignored :
    (after (.metFrame (from' 200) ⟨95, 3600, 0⟩) sensing).sources.map (fun x => x.reading) = [some (98, 0)] := by decide

theorem test_status : lastU (after (.status env) site) 13 = [2, 5, 0, 30, 3, 0, 0, 48, 1, 9, 0, 1, 2] := by decide +kernel
theorem test_setParam_range : lastU (after (.setParam env 14 7000) site) 11 = [2, 5, 0, 30, 3, 0, 0, 3, 2, 9, 2] := by
  decide +kernel
theorem test_setParam_mode : (after (.setParam env 3 5) site).params.headroom = 4 := by decide
theorem test_getParam : lastU (after (.getParam env 15) site) 16 =
    [2, 5, 0, 30, 3, 0, 0, 8, 3, 9, 0, 15, 0, 0, 0, 0] := by decide +kernel

/-- Row 2 of section 1.6: nodes 9, 12, 17 and 23 at columns 1, 2, 4 and 7, one load left to do. -/
def rowTwo : State :=
  { State.reset with
    turbines := [⟨9, ⟨2, 1, .d1, 0, 1⟩, {}⟩, ⟨17, ⟨2, 4, .d1, 0, 1⟩, {}⟩, ⟨23, ⟨2, 7, .d1, 0, 1⟩, {}⟩]
    rows := (Vector.replicate 16 {}).set 2 { members := [9, 17, 23] } }
theorem test_loadTurbine : (after (.loadTurbine env ⟨12, 2, 2, 1, 0, 1⟩) rowTwo).members 2 = [9, 12, 17, 23] := by decide
theorem test_loadTurbine_conflict :
    lastU (after (.loadTurbine env ⟨30, 2, 4, 1, 0, 1⟩) rowTwo) 11 = [2, 5, 0, 30, 3, 0, 0, 3, 4, 9, 4] := by decide +kernel
theorem test_dropTurbine : (after (.dropTurbine env 17) rowTwo).members 2 = [9, 23] := by decide
theorem test_dropTurbine_absent : lastU (after (.dropTurbine env 18) rowTwo) 11 = [2, 5, 0, 30, 3, 0, 0, 3, 5, 9, 5] := by
  decide +kernel
theorem test_loadSources :
    ((after (.loadSources env 1 [⟨1, 200⟩]) { sensing with mode := .pass }).sources,
      (after (.loadSources env 1 [⟨1, 200⟩]) { sensing with mode := .pass }).sector) =
      ([{ kind := .met, node := 200 }], none) := by decide
theorem test_loadSources_conflict :
    lastU (after (.loadSources env 1 [⟨1, 30⟩]) rowTwo) 11 = [2, 5, 0, 30, 3, 0, 0, 3, 6, 9, 4] := by decide +kernel
theorem test_loadPlan :
    ((after (.loadPlan env ⟨9, 819, 0, 0, 9, 1, [⟨8, 0, 7, 50, 1⟩]⟩) rowTwo).plan? 9).map (fun p => p.entries) =
      some [⟨8, 0, .deadline, 50, .skip⟩] := by decide
theorem test_loadPlan_conflict :
    lastU (after (.loadPlan env ⟨9, 819, 0, 0, 9, 1, [⟨8, 0, 7, 0, 1⟩]⟩) rowTwo) 11 =
      [2, 5, 0, 30, 3, 0, 0, 3, 7, 9, 4] := by decide +kernel
theorem test_dropPlan : (after (.dropPlan env 0) { site with mode := .pass }).plan? 0 = none := by decide
theorem test_dropPlan_mode : lastU (after (.dropPlan env 0) site) 11 = [2, 5, 0, 30, 3, 0, 0, 3, 8, 9, 1] := by decide +kernel
theorem test_readTurbine : lastU (after (.readTurbine env 2 16) site) 20 =
    [2, 5, 0, 30, 3, 0, 0, 32, 9, 9, 0, 1, 2, 1, 0, 1, 0, 250, 0, 40] := by decide +kernel
theorem test_readRow : lastU (after (.readRow env 1) site) 15 =
    [2, 5, 0, 30, 3, 0, 0, 7, 10, 9, 0, 1, 0, 1, 2] := by decide +kernel
theorem test_readWave : lastU (after (.readWave env 1 0) waving) 11 = [2, 5, 0, 30, 3, 0, 0, 3, 11, 9, 5] := by
  decide +kernel
theorem test_readNeutral : lastU (after (.readNeutral env) retargeting) 21 =
    [2, 5, 0, 30, 3, 0, 0, 13, 12, 9, 0, 1, 2, 1, 0, 4, 1, 0, 0, 0, 0] := by decide +kernel
theorem test_readPlan : lastU (after (.readPlan env 0) site) 20 =
    [2, 5, 0, 30, 3, 0, 0, 26, 13, 9, 0, 0, 3, 51, 0, 1, 44, 11, 184, 2] := by decide +kernel
theorem test_readCounts : lastU (after (.readCounts env) { site with ownDropped := 258 }) 75 =
    [2, 5, 0, 30, 3, 0, 0, 63, 14, 9, 0] ++ List.replicate 58 0 ++ [1, 2] := by decide +kernel
theorem test_modeSteer : (after (.modeSteer env) { site with mode := .pass }).mode = .steer := by decide
theorem test_modeSteer_storm :
    lastU (after (.modeSteer env) { site with mode := .pass, storm := true }) 11 =
      [2, 5, 0, 30, 3, 0, 0, 3, 15, 9, 6] := by decide +kernel
theorem test_stopKeep : ((after (.stopKeep env) site).mode, (after (.stopKeep env) site).cause) = (.pass, .complete) := by
  decide
theorem test_stopKeep_moving : (after (.stopKeep env) underWay).mode = .drain := by decide
theorem test_stopNeutral :
    (((after (.stopNeutral env) underWay).turbine? 1).map fun t => (t.live.move, t.live.slot, t.live.target)) =
      some (.moving, some .high, some 0) := by decide +kernel
theorem test_neutral : ((after (.neutral env 1) waving).masked 0, (after (.neutral env 1) waving).counters.skips) =
    (true, 1) := by decide
theorem test_maskSet : ((after (.maskSet env 1) waving).step? 7 0).map (fun x => x.state) = some .skipped := by decide
theorem test_maskClear : (after (.maskClear env 1) (site.setMask 0 true)).masked 0 = false := by decide
theorem test_restart : ((after (.restart env) underWay).mode, (after (.restart env) underWay).cause,
    (after (.restart env) underWay).motion, (after (.restart env) underWay).queueU.length) =
      (.pass, .restart, false, 2) := by decide
theorem test_unknownRequest : lastU (after (.unknownRequest env 200 []) site) 11 = [2, 5, 0, 30, 3, 0, 0, 3, 200, 9, 8] := by
  decide +kernel
theorem test_stormLineChange : (after (.stormLineChange true) underWay).cause = .storm := by decide
theorem test_yawHoldChange :
    ((after (.yawHoldChange false) { queued with yholdLine := true }).low,
      (after (.yawHoldChange false) { queued with yholdLine := true }).lowSlots) = ([], 1) := by decide
theorem test_linkLoss_d : ((after (.linkLoss .d) underWay).mode, (after (.linkLoss .d) underWay).cause,
    (after (.linkLoss .d) underWay).waves) = (.pass, .link, []) := by decide
theorem test_linkLoss_u : (after (.linkLoss .u) site).mode = .steer := by decide
theorem test_linkReturn : lastU (after (.linkReturn .d) { site with linkD := false }) 11 =
    [2, 6, 0, 30, 0, 0, 0, 3, 9, 1, 1] := by decide +kernel

/-- The divider with the worked hold of section 6.3 in service for wave 7's first step. -/
def dividing : State :=
  { waving with
    divider := ⟨[], some ⟨⟨.hold 7 0, 64512000, 77805⟩, 0, false⟩⟩
    waves := [{ wave7 with steps := [{ step0 with hold := 0, cmpA := .pending }, step1] }] }
theorem test_dividerArrival : ((after .dividerArrival dividing).step? 7 0).map (fun x => x.cmpA) = some (.value 829) := by
  decide +kernel
theorem test_dividerServiceStart :
    (after .dividerServiceStart { site with divider := ⟨[⟨.deadline 1, 6000, 30⟩], none⟩ }).divider =
      ⟨[], some ⟨⟨.deadline 1, 6000, 30⟩, 0, false⟩⟩ := by decide
theorem test_transmitCompletion :
    (after (.transmitCompletion .u) (site.notify (.link .d true))).queueU = [] := by decide
theorem test_stepRelease : (after (.stepRelease 7 0) { waving with yholdLine := true }).low = [1] := by decide
/-- R90, R96: a release that queues no turbine ends the step, which starts its successor. -/
theorem test_stepRelease_done :
    (after (.stepRelease 7 0) { waving with waves := [{ wave7 with targets := [(1, 5)] }] }).waves.map
      (fun w => w.steps.map fun x => (x.state, x.settled)) = [[(.done, 1), (.holding, 0)]] := by decide +kernel
theorem test_stepRelease_held : (after (.stepRelease 7 1) waving).low = [] := by decide
theorem test_grant :
    ((after .grant queued).queueD.map fun f => f.frame.payload.take 12) =
      [[2, 1, 1, 30, 14, 1, 0, 4, 1, 1, 0, 80]] := by decide +kernel
/-- R93, R77: the first grant starts step 1, whose hold time of 102,400 times 630 m follows the deadline's 2,667 counts. -/
theorem test_grant_divider : (after .grant queued).divider =
    ⟨[⟨.hold 7 1, 64512000, 77805⟩], some ⟨⟨.deadline 1, 8000, 30⟩, 0, false⟩⟩ := by decide +kernel
theorem test_grant_trigger : ((after .grant queued).step? 7 1).map (fun x => x.state) = some .holding := by decide +kernel
theorem test_retargetFrame : (after .retargetFrame retargeting).divider =
    ⟨[], some ⟨⟨.deadline 1, 2000, 30⟩, 0, false⟩⟩ := by decide
theorem test_waveCompletion : (after (.waveCompletion 7) finishing).mode = .pass := by decide
theorem test_drainEnd : (after .drainEnd { finishing with waves := [] }).cause = .complete := by decide
theorem test_returnEnd : (after .returnEnd { site with mode := .returning }).mode = .pass := by decide
theorem test_returnEnd_live : (after .returnEnd { retargeting with mode := .returning }).mode = .returning := by decide

/-! ### Witnesses: states and operands that meet the hypotheses of the statements -/

theorem takes_site (p : Port) : Takes p site := by cases p <;> exact ⟨rfl, rfl⟩
theorem served_site : Served site := ⟨takes_site .u, by decide, by decide⟩
theorem plansOk_site : PlansOk site := by
  intro p hp
  rw [show site.plans.toList = some plan0 :: List.replicate 23 none from rfl] at hp
  simp only [List.mem_cons, Option.some.injEq, List.mem_replicate, reduceCtorEq, and_false, or_false] at hp
  subst hp; decide
theorem wavesOk_site : WavesOk site := ⟨plansOk_site, by decide⟩
theorem wavesOk_waving : WavesOk waving := ⟨plansOk_site, by decide⟩
theorem wavesOk_underWay : WavesOk underWay := ⟨plansOk_site, by decide⟩
theorem rowTableOk_lives (s : State) (l1 l2 : Live) (ht : s.turbines = [{ node1 with live := l1 }, { node2 with live := l2 }])
    (hr : s.rows = site.rows) (ha : s.nodeAddr = 30) : RowTableOk s := by
  unfold RowTableOk
  rw [ht, ha]
  refine ⟨by simp [node1, node2], by simp [node1, node2], fun r h15 => ?_⟩
  have e : s.members r = if r = 0 then [1] else if r = 1 then [2] else [] := by
    unfold State.members State.row
    rw [hr]
    interval_cases r <;> rfl
  rw [e]
  constructor
  · intro n
    simp only [node1, node2, List.mem_cons, List.not_mem_nil, or_false, exists_eq_or_imp, exists_eq_left]
    split
    · rename_i h; subst h; simp [eq_comm]
    · split
      · rename_i h; subst h; simp [eq_comm]
      · simp only [List.not_mem_nil, false_iff]; omega
  · split
    · simp
    · split <;> simp
theorem rowTableOk_site : RowTableOk site := rowTableOk_lives site _ _ rfl rfl rfl
theorem oneActive_underWay : OneActiveStep underWay := by
  refine ⟨wavesOk_underWay, ?_⟩
  unfold StepState.active
  decide
theorem arbiterOk_underWay : ArbiterOk underWay := by
  refine ⟨by unfold WithinBudget; decide, rowTableOk_lives underWay _ _ rfl rfl rfl, oneActive_underWay,
    by unfold NeutralOk; decide, by unfold CountsOk; decide, ?_, by decide, by decide, by unfold Names; decide,
    by unfold Names; decide, by unfold Names; decide, by decide, by decide⟩
  simp [Turbine.handled, OwnerLive, underWay, moving1, node1, node2, site, wave7, step0, step1]
theorem arbiterOk_waving : ArbiterOk waving := by
  refine ⟨by unfold WithinBudget; decide, rowTableOk_site, ⟨wavesOk_waving, by unfold StepState.active; decide⟩,
    by unfold NeutralOk; decide, by unfold CountsOk; decide, ?_, by decide, by decide, by unfold Names; decide,
    by unfold Names; decide, by unfold Names; decide, by decide, by decide⟩
  simp [Turbine.handled, OwnerLive, waving, node1, node2, site]
theorem arbiterOk_site : ArbiterOk site := by
  refine ⟨by unfold WithinBudget; decide, rowTableOk_site, ⟨wavesOk_site, by unfold StepState.active; decide⟩,
    by unfold NeutralOk; decide, by unfold CountsOk; decide, ?_, by decide, by decide, by unfold Names; decide,
    by unfold Names; decide, by unfold Names; decide, by decide, by decide⟩
  simp [Turbine.handled, OwnerLive, node1, node2, site]

/-- A state under way with a command waiting. -/
def ticking : State := { underWay with pending := [.count] }

theorem witness_StepRunsFrontCommand : State.reset.pending = [] := rfl
theorem witness_step_next : ∃ t, step ticking = .next t := ⟨_, rfl⟩
theorem witness_QueueBoundsKept : QueueBounds ticking := by unfold QueueBounds; decide
theorem witness_ParamRangesKept : ParamRanges ticking := by unfold ParamRanges; decide
theorem witness_EstimateRangesKept : EstimateRanges ticking := by
  refine ⟨by decide, by decide, by decide, ?_, ?_⟩
  · intro f hf; cases hf; decide
  · intro k hk; cases hk; decide
theorem witness_WaveQueueOrderKept : WavesOk ticking := wavesOk_underWay
theorem witness_StepOrderKept : StepsInOrder ticking := by
  refine ⟨wavesOk_underWay, ?_⟩
  unfold StepState.committed StepState.unreleased; decide
theorem witness_OneActiveStepKept : OneActiveStep ticking := oneActive_underWay
theorem witness_MotionFollowsSlotsKept : MotionFollowsSlots ticking := fun _ => by decide
theorem witness_BudgetKept :
    WithinBudget ticking ∧ (after .count ticking).params.budget = ticking.params.budget ∧
      (after .count ticking).params.headroom = ticking.params.headroom := ⟨by unfold WithinBudget; decide, rfl, rfl⟩
theorem witness_BudgetKept_arbiter : ArbiterOk ticking ∧ ∃ t, step ticking = .next t := ⟨arbiterOk_underWay, _, rfl⟩
theorem witness_RowTableKept : RowTableOk { site with pending := [.count] } := rowTableOk_site
theorem witness_ConfigurationFrozenOutsidePass :
    ticking.mode ≠ .pass ∧ ticking.pending = [.count] ∧ (∀ a b d e f, Instr.count ≠ .powerOn a b d e f) ∧
      ∃ t, step ticking = .next t := ⟨by decide, rfl, by simp, _, rfl⟩
theorem witness_HeldUnitDoesNothing :
    (after .rstnHold site).relayClosed = true ∧ ∀ a b d e f, Instr.count ≠ .powerOn a b d e f := ⟨rfl, by simp⟩

theorem witness_FramesAreCommands :
    site.params.controlType ≤ 65535 ∧ (List.replicate 256 (⟨1, 1, 0⟩ : Item)).length ≤ 256 := by decide +kernel
theorem witness_ManageFramesAreCommands :
    2 + (Request.loadPlan ⟨9, 819, 0, 0, 9, 144, List.replicate 144 ⟨8, 0, 0, 0, 0⟩⟩).fields.length ≤ 1024 ∧
      commandOf env .restart = some (.restart env) ∧ 2 + (List.replicate 1022 (0 : Byte)).length ≤ 1024 := by
  decide +kernel
theorem witness_ValueFormats : (-300 : Int) ≤ -300 ∧ (300 : Int) ≤ 300 := by decide
theorem witness_DividerQuotient :
    0 < 1048575 ∧ 64512000 / 77805 < 65536 ∧ 65535 ≤ 838758400 / 512 ∧ 5 < 6 ∧ 65535 ≤ 33553920 / 512 := by decide

theorem witness_GateAndReleaseConditions :
    wave7.steps = [] ++ step0 :: ([] ++ step1 :: []) ∧ (wave7.steps.map fun x => x.row).Nodup ∧
      step0.state ≠ .empty ∧ step1.state ≠ .empty ∧ waving.waves = [] ++ wave7 :: [] ∧ (waving.waves.map fun x => x.num).Nodup ∧
      wave7.running = true ∧ step0.state = .holding ∧ waving.canRelease 7 0 = true ∧
      waving.gateSatisfied wave7 step0 = true := by decide
theorem witness_GateAndReleaseConditions_empty :
    let gap : WaveStep := { step1 with row := 5, state := .empty }
    let steps := [gap, step0, gap, step1, gap]
    let w : Wave := { wave7 with steps := [{ gap with row := 4 }, step0, gap, step1, { gap with row := 6 }] }
    (steps.map fun x => x.state) = w.steps.map (fun x => x.state) ∧ (w.steps.map fun x => x.row).Nodup ∧
      gap.state = .empty ∧ gap ∈ w.steps ∧ w.successor 5 = none ∧ w.predecessor 5 = none ∧ w.successor 0 = some step1 ∧ w.predecessor 1 = some step0 ∧ w.successor 1 = none ∧
      w.predecessor 0 = none := by decide

/-- A frame of the control type with a right check sequence. -/
def sealed (payload : List Byte) : EthFrame := sealFrame 0 5 39969 payload

theorem witness_FramesNotActedOn_notTaken : ¬Takes .d { site with linkD := false } := by rintro ⟨_, h⟩; cases h
theorem witness_FramesNotActedOn_badCheck :
    (EthFrame.mk 0 0 0 [] 0).fcs ≠ checkSequence 0 0 0 [] := by decide +kernel
theorem witness_FramesNotActedOn_check :
    Takes .u site ∧ ∀ p, (sealed p).fcs = checkSequence (sealed p).dst (sealed p).src (sealed p).etype (sealed p).payload :=
  ⟨takes_site .u, fun _ => rfl⟩
theorem witness_FramesNotActedOn_foreign :
    (sealFrame 0 5 39968 []).etype.toNat ≠ site.params.controlType ∧
      8 ≤ (sealed [3, 1, 0, 0, 0, 0, 0, 0]).payload.length ∧ (sealed [3, 1, 0, 0, 0, 0, 0, 0]).payload.head? ≠ some 2 := by
  decide
theorem witness_FramesNotActedOn_short :
    (sealed [2, 1, 0, 0, 0, 0, 0]).etype.toNat = site.params.controlType ∧
      (sealed [2, 1, 0, 0, 0, 0, 0]).payload.length < 8 := by decide
theorem witness_FramesNotActedOn_malformed :
    1024 < (be16 4 1).toNat ∧ ([] : List Byte).length < (be16 0 1).toNat ∧ 6 < (7 : Byte).toNat ∧
      (be16 0 1).toNat % 4 ≠ 0 ∧ (be16 0 7).toNat < 8 ∧ (be16 0 4).toNat < 5 ∧ (be16 0 1).toNat < 2 ∧
      (be16 0 2).toNat < 3 ∧ (be16 0 0).toNat < 1 := by decide
theorem witness_DisposalByKindAndPort :
    Takes .d site ∧ Takes .u site ∧ site.params.controlType ≤ 65535 ∧ site.nodeAddr = 30 ∧
      site.nodeAddr ≠ 0 ∧ site.nodeAddr ≠ 255 ∧ (31 : Byte) ≠ site.nodeAddr :=
  ⟨takes_site .d, takes_site .u, by decide⟩

/-- Items for an unknown and a known node. -/
def mixed : List Item := [⟨90, 1, 50⟩, ⟨1, 1, 70⟩]

theorem witness_SetpointForwarding :
    Takes .u site ∧ mixed.filter site.takes ≠ [] ∧ [(⟨90, 1, 50⟩ : Item)].filter site.takes = [] ∧
      mixed.filter (fun i => !site.takes i) ≠ [] ∧ [(⟨1, 1, 50⟩ : Item)].filter (fun i => !site.takes i) = [] :=
  ⟨takes_site .u, by decide⟩
theorem witness_SetpointOpensWave :
    Takes .u site ∧ site.mode = .steer ∧ (∀ w ∈ site.waves, w.running = true) ∧ site.waves.length < 4 ∧
      (from' 0).flags.getLsbD 0 = false ∧ mixed.filter site.takes ≠ [] := ⟨takes_site .u, by decide⟩
theorem witness_SetpointOpensWave_same_set :
    Takes .u forming ∧ WavesOk forming ∧ ∃ w, forming.waves = [] ++ [w] ∧ w.running = false ∧ w.set = (14 : Byte).toNat ∧
      (w.targets.map fun q => q.1).Pairwise (· < ·) ∧ (0 : Byte).getLsbD 0 = false ∧ mixed.filter forming.takes ≠ [] :=
  ⟨takes_site .u, ⟨plansOk_site, by decide⟩, _, rfl, by decide⟩
theorem witness_SetpointOpensWave_last :
    Takes .u site ∧ site.mode = .steer ∧ WavesOk site ∧ (1 : Byte).getLsbD 0 = true ∧ site.waves.length < 4 ∧
      (∀ w ∈ site.waves, w.running = false → w.set = (14 : Byte).toNat) ∧
      ∀ w ∈ forming.waves, w.running = false → w.set = (14 : Byte).toNat := ⟨takes_site .u, rfl, wavesOk_site, by decide⟩
theorem witness_SetpointOpensWave_other_set :
    Takes .u forming ∧ forming.mode = .steer ∧ WavesOk forming ∧
      (∃ w ∈ forming.waves, w.running = false ∧ w.set ≠ (15 : Byte).toNat) ∧ mixed.filter forming.takes ≠ [] :=
  ⟨takes_site .u, rfl, ⟨plansOk_site, by decide⟩, by decide⟩

/-- Four RUNNING waves, the youngest with its steps HOLDING and WAITING. -/
def full : State :=
  { site with waveCounter := 8, waves :=
      [{ wave7 with num := 4, steps := [] }, { wave7 with num := 5, steps := [] }, { wave7 with num := 6, steps := [] }, wave7] }

theorem witness_SetpointFoldsIntoYoungest :
    Takes .u full ∧ full.mode = .steer ∧ WavesOk full ∧
      (∃ older, full.waves = older ++ [wave7] ∧ older.length = 3) ∧ wave7.running = true ∧
      mixed.filter full.takes ≠ [] :=
  ⟨takes_site .u, rfl, ⟨plansOk_site, by decide⟩, ⟨full.waves.take 3, by decide⟩, rfl, by decide⟩
theorem witness_QuietExpiry_notDue : site.quietDue = false := rfl
theorem witness_QuietExpiryDiscardsUncovered :
    let s := { forming with sector := some 23 }
    s.relayClosed = false ∧ s.quietDue = true ∧ s.waves.length = 1 ∧ (∀ w ∈ s.waves, w.running = false) ∧
      (∀ k ∈ s.sector, s.plan? k = none) := by
  refine ⟨rfl, rfl, rfl, by decide, ?_⟩
  intro k hk; cases hk; rfl
theorem witness_QuietExpiryClosesCovered :
    forming.relayClosed = false ∧ forming.quietDue = true ∧ WavesOk forming ∧ NoneFinished forming ∧
      forming.sector = some 0 ∧ forming.plan? 0 = some plan0 ∧
      (∃ e ∈ plan0.entries, HasWork forming [(1, 80), (2, 40)] e) ∧ ∀ e ∈ plan0.entries, ¬HasWork forming [] e := by
  refine ⟨rfl, rfl, ⟨plansOk_site, by decide⟩, ?_, rfl, rfl, ?_, ?_⟩
  · unfold NoneFinished; decide
  · unfold HasWork; decide
  · unfold HasWork; decide

theorem witness_ReportUpdatesRecord : Takes .d underWay ∧ (underWay.turbines.map fun x => x.node).Nodup :=
  ⟨takes_site .d, by decide⟩
theorem witness_ReportFreesSlot :
    Takes .d underWay ∧ moving1 ∈ underWay.turbines ∧ moving1.node = (from' 1).src.toNat ∧ moving1.live.move = .moving ∧
      moving1.live.slot = some .low ∧ NothingQueued underWay ∧ NoHolding underWay ∧ WaitingUnforced underWay ∧
      NoneUnreleased underWay ∧ (moving1.config.format.receive 75 - 80).natAbs ≤ underWay.params.tolerance ∧ 2 ≤ (2 : Byte).toNat ∧
      WavesOk underWay ∧ (underWay.neutral.steps.map fun k => k.row).Nodup ∧ (1 : Byte) ≠ 0 := by
  refine ⟨takes_site .d, by decide, rfl, rfl, rfl, ⟨rfl, rfl, rfl⟩, ?_, ?_, ?_, by decide, by decide, wavesOk_underWay,
    by decide⟩
  · unfold NoHolding; decide
  · unfold WaitingUnforced; decide
  · unfold NoneUnreleased StepState.unreleased; decide

/-- Wave 7 in hold-start mode SETTLE with its first step MOVING and its second WAITING. -/
def settling : State :=
  { underWay with
    plans := (Vector.replicate 24 none).set 0 (some { plan0 with holdStart := .settle })
    waves := [{ wave7 with steps := [{ step0 with state := .moving, needed := 1, rel := some 300 }, step1] }] }

theorem wavesOk_settling : WavesOk settling := by
  refine ⟨?_, by decide⟩
  intro p hp
  rw [show settling.plans.toList = some { plan0 with holdStart := .settle } :: List.replicate 23 none from rfl] at hp
  simp only [List.mem_cons, Option.some.injEq, List.mem_replicate, reduceCtorEq, and_false, or_false] at hp
  subst hp; decide
theorem witness_ReportFreesSlot_starts :
    Takes .d settling ∧ moving1 ∈ settling.turbines ∧ NothingQueued settling ∧ NoHolding settling ∧
      WaitingUnforced settling ∧ WavesOk settling ∧
      hasTriggered settling wave7 { step0 with state := .moving, rel := some 300 } = false ∧
      (settling.waves.map fun w => (w.successor 0).map fun x => x.state) = [some .waiting] := by
  refine ⟨takes_site .d, by decide, ⟨rfl, rfl, rfl⟩, ?_, ?_, wavesOk_settling, by decide⟩
  · unfold NoHolding; decide
  · unfold WaitingUnforced; decide
/-- R80, R96, R77: in hold-start mode SETTLE the step's end starts its successor, with a request of 102,400 times 630 m. -/
theorem test_reportFrame_starts :
    ((settling.tapReport (from' 1) ⟨80, 0, 0, 0, 0⟩).waves.map fun w => w.steps.map fun x => x.state,
      (settling.tapReport (from' 1) ⟨80, 0, 0, 0, 0⟩).divider) =
      ([[.done, .holding]], ⟨[], some ⟨⟨.hold 7 1, 64512000, 77805⟩, 0, false⟩⟩) := by decide +kernel
theorem witness_ReportFreesSlot_stopped_short :
    (1 : Byte).toNat ≤ 1 ∧ moving1.live.move = .moving ∧ moving1.node = (from' 1).src.toNat ∧
      ∀ g, moving1.live.target = some g → underWay.params.tolerance < (moving1.config.format.receive 74 - g).natAbs := by
  refine ⟨by decide, rfl, rfl, ?_⟩
  intro g hg; cases hg; decide

/-- Node 1 in RETARGET while D's queue has no own place free. -/
def crowded : State := { retargeting with queueD := List.replicate 8 ⟨true, sealFrame 0 0 0 []⟩ }

theorem witness_ReportFreesSlot_retarget :
    Takes .d crowded ∧ (crowded.turbines.map fun y => y.node).Nodup ∧ NoHolding crowded ∧ WaitingUnforced crowded ∧
      WavesOk crowded ∧
      (crowded.turbine? 1).map (fun x => (x.live.move, x.live.slot)) = some (.retarget, some .high) ∧
      8 ≤ crowded.queueD.countP (fun f => f.own) ∧ (crowded.neutral.steps.map fun k => k.row).Nodup := by
  refine ⟨takes_site .d, by decide, ?_, ?_, ⟨plansOk_site, by decide⟩, by decide⟩
  · unfold NoHolding; decide
  · unfold WaitingUnforced; decide
theorem witness_MetObserved : Takes .d sensing := takes_site .d
theorem witness_ReadsAnswerOnly : Served site := served_site
theorem witness_GetParamAnswers :
    Served site ∧ parameter site.params 16 = some 0 ∧ parameter site.params 1 = some 39969 ∧ 16 < (17 : Byte).toNat :=
  ⟨served_site, by decide⟩
theorem witness_ReadsReportState :
    Served site ∧ 15 < (16 : Byte).toNat ∧ 23 < (24 : Byte).toNat ∧ site.plan? 23 = none ∧ site.plan? 0 = some plan0 ∧
      16 < (17 : Byte).toNat ∧ ∀ x ∈ site.turbines, x.node < (3 : Byte).toNat := ⟨served_site, by decide⟩
theorem witness_ReadsReportState_records :
    Served waving ∧ (∃ x ∈ waving.turbines, (2 : Byte).toNat ≤ x.node) ∧ 3 < (4 : Byte).toNat ∧
      waving.waves.length ≤ (1 : Byte).toNat ∧ waving.waves = [] ++ wave7 :: [] ∧ ([] : List Wave).length = (0 : Byte).toNat :=
  ⟨served_site, by decide⟩
theorem witness_SetParamChecked :
    Served site ∧ parameterRange 0 = none ∧ parameterRange 17 = none ∧ parameterRange 16 = some (0, 1) ∧
      parameterRange 14 = some (0, 6000) ∧ parameterRange 2 = some (1, 64) ∧ site.mode ≠ .pass :=
  ⟨served_site, by decide⟩

/-- The site in PASS. -/
def passing : State := { site with mode := .pass, lapse := .stopped }

theorem served_passing : Served passing := served_site
theorem witness_LoadTurbineChecked :
    Served passing ∧ RowTableOk passing ∧ loadTurbineResult passing ⟨254, 15, 31, 3, 300, 200⟩ = .ok ∧
      loadTurbineResult passing ⟨255, 15, 31, 3, 300, 200⟩ = .range ∧
      loadTurbineResult passing ⟨30, 15, 31, 3, 300, 200⟩ = .conflict ∧
      loadTurbineResult passing ⟨3, 1, 0, 3, 300, 200⟩ = .conflict ∧
      loadTurbineResult site ⟨3, 1, 0, 3, 300, 200⟩ = .mode := ⟨served_passing, rowTableOk_site, by decide⟩
theorem witness_DropTurbineChecked :
    Served passing ∧ RowTableOk passing ∧ (∃ x ∈ passing.turbines, x.node = (2 : Byte).toNat) ∧
      (∀ x ∈ passing.turbines, x.node ≠ (254 : Byte).toNat) ∧ site.mode ≠ .pass :=
  ⟨served_passing, rowTableOk_site, by decide⟩
theorem witness_LoadSourcesChecked :
    Served passing ∧ loadSourcesResult passing 4 [⟨1, 1⟩, ⟨2, 2⟩, ⟨1, 254⟩, ⟨1, 4⟩] = .ok ∧
      loadSourcesResult passing 5 [] = .range ∧ loadSourcesResult passing 1 [⟨1, 30⟩] = .conflict ∧
      loadSourcesResult passing 0 [] = .ok := ⟨served_passing, by decide⟩
theorem witness_PlanSlotsChecked :
    Served passing ∧ loadPlanResult passing ⟨23, 512, 1, 5, 5, 1, [⟨15, 4095, 7, 1, 1⟩]⟩ = .ok ∧
      loadPlanResult passing ⟨24, 512, 1, 5, 5, 1, [⟨15, 4095, 7, 1, 1⟩]⟩ = .range ∧
      loadPlanResult passing ⟨23, 1024, 1, 5, 5, 1, [⟨15, 4095, 7, 0, 1⟩]⟩ = .conflict ∧
      passing.plan? 23 = none ∧ passing.plan? 0 = some plan0 ∧ 23 < (24 : Byte).toNat := ⟨served_passing, by decide⟩
theorem witness_ModeSteerChecked :
    Served passing ∧ site.mode ≠ .pass ∧ passing.mode = .pass ∧ passing.linkD = true ∧ passing.storm = false ∧
      ¬(passing.turbines = [] ∨ ∀ k, passing.plan? k = none) ∧
      (State.reset.turbines = [] ∧ State.reset.mode = .pass ∧ State.reset.linkD = true) := by
  refine ⟨served_passing, by decide, rfl, rfl, rfl, ?_, by decide⟩
  rintro (h | h)
  · exact absurd h (by decide)
  · exact absurd (h 0) (by decide)
theorem witness_StopKeepDrains :
    Served underWay ∧ underWay.mode = .steer ∧ ArbiterOk underWay ∧ (∃ w ∈ drainedWaves underWay, w.running = true) ∧
      passing.mode ≠ .steer := ⟨served_site, rfl, arbiterOk_underWay, by decide⟩
theorem witness_StopKeepDrains_ends :
    Served waving ∧ waving.mode = .steer ∧ ArbiterOk waving ∧ (∀ w ∈ drainedWaves waving, w.running = false) ∧
      waving.neutral.active = false ∧ (drainedOut waving).length = 1 := ⟨served_site, rfl, arbiterOk_waving, by decide⟩
theorem witness_StopNeutralReturns :
    Served underWay ∧ underWay.mode = .steer ∧ ArbiterOk underWay ∧ passing.mode ≠ .steer ∧ passing.mode ≠ .drain ∧
      staysAtWork underWay (fun _ => true) = true := ⟨served_site, rfl, arbiterOk_underWay, by decide⟩

/-- The site with both turbines settled at 0, so that RETURN ends in the event of its entry. -/
def resting : State := { site with turbines := [node1, { node2 with live := { node2.live with applied := some (-5) } }] }

theorem witness_StopNeutralReturns_ends :
    Served resting ∧ resting.mode = .steer ∧ ArbiterOk resting ∧ staysAtWork resting (fun _ => true) = false := by
  refine ⟨served_site, rfl, ?_, by decide⟩
  refine ⟨by unfold WithinBudget; decide, rowTableOk_lives resting _ _ rfl rfl rfl,
    ⟨wavesOk_site, by unfold StepState.active; decide⟩,
    by unfold NeutralOk; decide, by unfold CountsOk; decide, ?_, by decide, by decide, by unfold Names; decide,
    by unfold Names; decide, by unfold Names; decide, by decide, by decide⟩
  simp [Turbine.handled, OwnerLive, resting, node1, node2, site]
theorem witness_NeutralSetsMasks :
    Served waving ∧ waving.mode = .steer ∧ (0x8000 : BitVec 16) ≠ 0 ∧ ArbiterOk waving ∧ NoneAtP waving ∧
      passing.mode ≠ .steer :=
  ⟨served_site, rfl, by decide, arbiterOk_waving, by unfold NoneAtP; simp [waving, wave7, step0, step1], by decide⟩
theorem witness_NeutralSetsMasks_superseded :
    Served underWay ∧ underWay.mode = .steer ∧ (1 : BitVec 16).getLsbD 0 = true ∧ ArbiterOk underWay ∧
      owned underWay (.low 7 0) = 1 := ⟨served_site, rfl, by decide, arbiterOk_underWay, by decide⟩
theorem witness_NeutralSetsMasks_divider :
    WaitingUnforced waving ∧ WavesOk waving ∧ waving.divider.list = [] ∧
      (∀ w ∈ waving.waves, ∀ st ∈ w.steps, (1 : BitVec 16).getLsbD st.row = true → ∀ next, w.successor st.row = some next →
        next.state = .waiting → (1 : BitVec 16).getLsbD next.row = false) := by
  refine ⟨?_, wavesOk_waving, rfl, ?_⟩
  · unfold WaitingUnforced; decide
  · intro w hw st hst hr next hn _
    simp only [waving, List.mem_singleton] at hw; subst hw
    simp only [wave7, List.mem_cons, List.not_mem_nil, or_false] at hst
    obtain rfl | rfl := hst
    · have : wave7.successor step0.row = some step1 := rfl
      cases this.symm.trans hn; decide
    · exact absurd hr (by decide)
/-- R137: node 1 is retargeted, and its deadline in service is marked for discard. -/
theorem test_neutral_divider : (after (.neutral env 1)
    { underWay with
      turbines := [{ moving1 with live := { moving1.live with deadline := .pending } }, node2]
      divider := ⟨[], some ⟨⟨.deadline 1, 8000, 30⟩, 0, false⟩⟩ }).divider =
    ⟨[⟨.deadline 1, 0, 30⟩], some ⟨⟨.deadline 1, 8000, 30⟩, 0, true⟩⟩ := by decide +kernel
theorem witness_MaskSetAndClear :
    Served waving ∧ WavesOk waving ∧ (0x8001 : BitVec 16).getLsbD 0 = true ∧ (0x8001 : BitVec 16).getLsbD 15 = true ∧
      waving.masked 0 = false := ⟨served_site, wavesOk_waving, by decide⟩
theorem witness_MaskSetAndClear_active :
    Served underWay ∧ WavesOk underWay ∧ ArbiterOk underWay ∧
      (underWay.step? 7 0).map (fun x => (x.state, x.rel)) = some (.moving, some 300) ∧
      moving1.live.owner = some (.low 7 0) ∧ (1 : BitVec 16).getLsbD 0 = true :=
  ⟨served_site, wavesOk_underWay, arbiterOk_underWay, by decide⟩

/-- Wave 7 with its first step's hold time asked for and still to come. -/
def asked : State :=
  { waving with
    mark := .stale
    divider := ⟨[⟨.deadline 2, 5000, 40⟩], some ⟨⟨.hold 7 0, 64512000, 77805⟩, 0, false⟩⟩
    waves := [{ wave7 with steps := [{ step0 with hold := 0, cmpA := .pending }, step1] }] }

theorem witness_MaskSetAndClear_divider :
    ArbiterServed asked ∧ asked.plan? 0 = some plan0 ∧ (asked.step? 7 0).map (fun x => x.cmpA) = some .pending :=
  ⟨⟨.inl rfl, fun _ => rfl⟩, rfl, by decide⟩
/-- R79, R97, R116, R77: the skipped step's hold time is marked for discard, and its successor's request of 102,400 times 630 m stands
last. -/
theorem test_maskSet_divider : (after (.maskSet env 1) asked).divider =
    ⟨[⟨.deadline 2, 5000, 40⟩, ⟨.hold 7 1, 64512000, 77805⟩], some ⟨⟨.hold 7 0, 64512000, 77805⟩, 0, true⟩⟩ := by
  decide +kernel
theorem witness_MaskSetAndClear_one :
    let s := { waving with mark := .stale }
    Served s ∧ WavesOk s ∧ NoneAtP s ∧ s.mark = .stale ∧ NoneFinished s ∧ ModeStands s ∧ wave7.running = true ∧
      (∀ st ∈ wave7.steps, (1 : BitVec 16).getLsbD st.row = true → s.masked st.row = false → st.row = step0.row) ∧
      (∃ o ∈ wave7.steps, o.row ≠ step0.row ∧ o.state.terminal = false) ∧
      wave7.successor step0.row = some step1 ∧ step1.state = .waiting := by
  refine ⟨served_site, wavesOk_waving, ?_, rfl, ?_, ?_, rfl, by decide, by decide, by decide, rfl⟩
  · unfold NoneAtP; simp [waving, wave7, step0, step1]
  · unfold NoneFinished; decide
  · unfold ModeStands; decide
theorem witness_NeutralSetsMasks_one :
    let s := { waving with mark := .stale }
    Served s ∧ WavesOk s ∧ NoneAtP s ∧ s.mark = .stale ∧ NoneFinished s ∧ s.mode = .steer ∧ wave7.running = true ∧
      (∀ st ∈ wave7.steps, (1 : BitVec 16).getLsbD st.row = true → st.state.terminal = false → st.row = step0.row) ∧
      step0.state.unreleased ∧ wave7.sector.bind s.plan? = some plan0 ∧ ArbiterServed s ∧ ArbiterOk s ∧
      (∃ o ∈ wave7.steps, o.row ≠ step0.row ∧ o.state.terminal = false) ∧
      wave7.successor step0.row = some step1 ∧ step1.state = .waiting := by
  refine ⟨served_site, wavesOk_waving, ?_, rfl, ?_, rfl, rfl, by decide, .inr rfl, rfl, ⟨.inl rfl, fun _ => rfl⟩, arbiterOk_waving,
    by decide, by decide, rfl⟩
  · unfold NoneAtP; simp [waving, wave7, step0, step1]
  · unfold NoneFinished; decide
/-- R99, R77: the step skipped by a NEUTRAL request triggers its successor, whose hold time follows in the divider. -/
theorem test_neutral_trigger : ((after (.neutral env 1) asked).step? 7 1).map (fun x => x.state) = some .holding := by
  decide +kernel
theorem witness_RestartClears : Served underWay := served_site
theorem witness_UnknownAndShortRequests :
    Served site ∧ 18 < (19 : Byte).toNat ∧ ([0, 0, 0, 0, 0, 0, 0] : List Byte).length < fixedFields 4 ∧
      ([0, 0] : List Byte).length < fixedFields 17 ∧ 3 < (4 : Byte).toNat ∧ 1 < (2 : Byte).toNat := ⟨served_site, by decide⟩
theorem witness_PowerOnAndHold : site.relayClosed = false := rfl
theorem witness_CountAdvances :
    waving.relayClosed = false ∧ waving.estimateDue = false ∧ waving.quietDue = false ∧ waving.lapseDue = false ∧
      (∀ x ∈ waving.turbines, x.live.deadlineReached waving.timeBase = false) ∧
      ∀ w ∈ waving.waves, ∀ st ∈ w.steps, st.owesTest = false ∧ st.owesDeadline = false := by decide
theorem witness_EstimateHoldsOrPrimes :
    sensing.relayClosed = false ∧ sensing.estimateDue = true ∧ freshReadingsAt sensing = [(98, 0)] ∧
      freshReadingsAt { site with estimateDue := true } = [] ∧ State.reset.filter = none ∧ site.estimateDue = false := by
  decide
/-- A unit that has found no source fresh yet, with the estimate step due that finds one. -/
def unprimed : State := { sensing with filter := none, sector := none, mark := .stale }

theorem witness_EstimateHoldsOrPrimes_primes :
    unprimed.relayClosed = false ∧ unprimed.estimateDue = true ∧ freshReadingsAt unprimed = [(98, 0)] ∧
      unprimed.filter = none := by decide
/-- R28, R32: the filters take 9.8 m/s and direction 0, and the sector is 0. -/
theorem test_estimateStep_primes :
    ((after .estimateStep unprimed).filter, (after .estimateStep unprimed).sector) = (some ⟨25088, 0⟩, some 0) := by decide
theorem witness_EstimateFilters :
    sensing.filter = some ⟨24320, 0⟩ ∧ sensing.sector = some 0 ∧ EstimateRanges sensing ∧ sensing.params.hysteresis ≤ 75 := by
  refine ⟨rfl, rfl, ⟨by decide, by decide, ?_, ?_, ?_⟩, by decide⟩
  · intro x hx p hp
    simp only [sensing, List.mem_singleton] at hx; subst hx; cases hp; decide
  · intro f hf; cases hf; decide
  · intro k hk; cases hk; decide
theorem witness_EstimateFilters_band :
    InWidenedBand 179 0 30 ∧ InWidenedBand 3570 0 30 ∧ ¬InWidenedBand 180 0 30 ∧ ¬InWidenedBand 3569 0 30 :=
  ⟨⟨0, by decide⟩, ⟨-3600, by decide⟩, by rintro ⟨t, h1, h2, h3⟩; omega, by rintro ⟨t, h1, h2, h3⟩; omega⟩
/-- Wave 7 under way at an estimate step that turns the wind out of sector 0. -/
def veering : State := { underWay with sources := sensing.sources, estimateDue := true, filter := some ⟨24320, 200000⟩ }

theorem witness_EstimateFilters_veer :
    veering.relayClosed = false ∧ veering.estimateDue = true ∧ freshReadingsAt veering = [(98, 0)] ∧
      veering.sector = some 0 ∧ ArbiterOk veering ∧ veering.mode = .steer ∧
      (after .estimateStep veering).filter.map (fun f => f.direction / 256) = some 732 ∧ ¬InWidenedBand 732 0 30 :=
  ⟨rfl, rfl, by decide, rfl, arbiterOk_underWay, rfl, by decide, by rintro ⟨t, h1, h2, h3⟩; omega⟩
theorem witness_LatchesEvaluated :
    sensing.filter ≠ none ∧ sensing.sector ≠ none ∧ NoHolding sensing ∧ NothingQueued sensing ∧ ModeStands sensing ∧
      freshReadingsAt sensing ≠ [] := by
  refine ⟨by decide, by decide, ?_, ⟨rfl, rfl, rfl⟩, ?_, by decide⟩
  · unfold NoHolding; decide
  · unfold ModeStands; decide
/-- Wave 7 at an estimate step, its HOLDING step at A with a gate, a latch W and a reference direction given. -/
def gusting (gate : Gate) (latch : Bool) (reference : Nat) : State :=
  { sensing with
    mark := .stale, waveCounter := 8
    waves := [{ wave7 with latchW := latch, dRef := some reference, steps := [{ step0 with gate := gate }, step1] }] }

theorem witness_LatchesEvaluated_holding :
    let s := gusting .direction true 0
    s.relayClosed = false ∧ s.estimateDue = true ∧ freshReadingsAt s ≠ [] ∧ s.filter ≠ none ∧ s.sector ≠ none ∧
      (s.step? 7 0).map (fun x => (x.state, x.owesTest, x.cmpP)) = some (.holding, false, none) ∧ NoneAtP s ∧
      NothingQueued s ∧ ModeStands s ∧ (after .estimateStep s).sector = s.sector ∧
      (after .estimateStep s).counters.veers = s.counters.veers ∧
      ({ s with mark := .fresh } : State).stepKeys.all (fun k => !({ s with mark := .fresh } : State).canRelease k.1 k.2) = true := by
  refine ⟨rfl, rfl, by decide, by decide, by decide, by decide, ?_, ⟨rfl, rfl, rfl⟩, ?_, by decide, by decide, by decide⟩
  · unfold NoneAtP; simp [gusting, wave7, step0, step1]
  · unfold ModeStands; decide
theorem witness_LatchesEvaluated_releases :
    let s := gusting .time false 0
    WavesOk s ∧ ({ s with mark := .fresh } : State).canRelease 7 0 = true ∧
      (∀ w' ∈ s.waves, ∀ st' ∈ w'.steps, st'.state = .holding → w'.num = 7 ∧ st'.row = 0) ∧
      (∀ st' ∈ wave7.steps, st'.forced = true → st'.row = 0) ∧ (after .estimateStep s).sector = s.sector :=
  ⟨⟨plansOk_site, by decide⟩, by decide⟩
/-- R36, R48: a direction 300 tenths of a degree from the reference sets W, and the DIRECTION step goes on holding. -/
theorem test_estimateStep_latch :
    (after .estimateStep (gusting .direction false 300)).waves.map (fun w => (w.latchW, w.steps.map fun x => x.state)) =
      [(true, [.holding, .waiting])] := by decide
theorem witness_LapseExpiryReturns :
    let s := { underWay with lapseDue := true, lapse := .running 65535 }
    s.relayClosed = false ∧ s.lapseDue = true ∧ s.lapse = .running 65535 ∧ s.mode = .steer ∧ ArbiterOk s ∧
      site.lapseDue = false ∧ passing.mode = .pass := ⟨rfl, rfl, rfl, rfl, arbiterOk_underWay, rfl, rfl⟩
theorem witness_DeadlineExpiryStalls :
    underWay.relayClosed = false ∧ (underWay.turbines.map fun y => y.node).Nodup ∧ moving1 ∈ underWay.turbines ∧
      moving1.live.move = .moving ∧ moving1.live.slot = some .low ∧
      moving1.live.deadline = .value (0 + BitVec.ofNat 32 300) 300 ∧ max 1 300 ≤ (underWay.timeBase - 0).toNat ∧
      NothingQueued underWay ∧ NoHolding underWay ∧ WaitingUnforced underWay ∧ WavesOk underWay ∧
      (underWay.neutral.steps.map fun k => k.row).Nodup ∧
      ∀ x ∈ site.turbines, x.node = 1 → x.live.deadlineReached site.timeBase = false := by
  refine ⟨rfl, by decide, by decide, rfl, rfl, rfl, by decide, ⟨rfl, rfl, rfl⟩, ?_, ?_, wavesOk_underWay, by decide⟩
  · unfold NoHolding; decide
  · unfold WaitingUnforced; decide
theorem witness_DeadlineExpiryStalls_starts :
    settling.timeBase = 300 ∧ NothingQueued settling ∧ NoHolding settling ∧ WaitingUnforced settling ∧
      moving1.live.deadlineReached settling.timeBase = true ∧
      ((after (.deadlineExpiry 1) settling).step? 7 1).map (fun x => x.state) = some .holding := by
  refine ⟨rfl, ⟨rfl, rfl, rfl⟩, ?_, ?_, by decide, by decide⟩
  · unfold NoHolding; decide
  · unfold WaitingUnforced; decide
theorem witness_StormLineRead :
    underWay.relayClosed = false ∧ true ≠ underWay.stormLine ∧ underWay.storm = false ∧ underWay.mode = .steer ∧
      ArbiterOk underWay ∧ underWay.params.stormEdge = .rising := ⟨rfl, by decide, rfl, rfl, arbiterOk_underWay, rfl⟩
theorem witness_YawHoldAndTransmit :
    true ≠ site.yholdLine ∧ { site with yholdLine := true }.holdActive = true ∧ NothingQueued site ∧
      { queued with yholdLine := false }.grantable ≠ none ∧ queued.retargets = [] ∧ retargeting.retargets ≠ [] ∧
      retargeting.freePlaces ≠ 0 ∧ site.queueU = [] := by
  refine ⟨by decide, by decide, ⟨rfl, rfl, rfl⟩, by decide⟩
/-- Node 1 waiting in the LOW list while every slot of the budget is held. -/
def spent : State := { queued with lowSlots := queued.params.budget, motion := true, yholdLine := true }

theorem witness_YawHoldAndTransmit_waits :
    let held := { spent with yholdLine := false }
    spent.relayClosed = false ∧ false ≠ spent.yholdLine ∧ held.holdActive = false ∧ ArbiterServed held ∧ held.low = [1] ∧
      { retargeting with yholdLine := true }.holdActive = true ∧ retargeting.holdActive = false :=
  ⟨rfl, by decide, by decide, ⟨.inl rfl, fun _ => by decide⟩, rfl, by decide⟩
theorem witness_YawHoldAndTransmit_sent :
    let s := { spent with queueD := [⟨true, sealFrame 0 0 0 []⟩] }
    s.linkD = true ∧ ArbiterServed { s with queueD := [] } ∧ s.low = [1] :=
  ⟨rfl, ⟨.inl rfl, fun _ => by decide⟩, rfl⟩
theorem witness_YawHoldAndTransmit_own :
    let s := queued.sendD (queued.setpointFrame 1 0 0)
    s.linkD = true ∧ (∃ f, s.queueD = [f] ∧ f.own = true) ∧ queued.grantable ≠ none ∧ queued.retargets = [] :=
  ⟨rfl, ⟨_, rfl, rfl⟩, by decide⟩
theorem witness_LinkEvents : site.relayClosed = false ∧ site.linkD = true ∧ site.linkU = true := by decide
theorem witness_DividerServesDeadlines :
    let x : Turbine := { moving1 with live := { moving1.live with deadline := .pending } }
    let s : State := { underWay with
      turbines := [x, node2], divider := ⟨[], some ⟨⟨.deadline 1, 6000, 30⟩, 0, false⟩⟩ }
    s.relayClosed = false ∧ x ∈ s.turbines ∧ (s.turbines.map fun y => y.node).Nodup ∧ x.live.move = .moving ∧
      x.live.deadline = .pending ∧ 0 < 30 ∧ site.divider.stage = none ∧ site.divider.list = [] := by decide
theorem witness_DividerFormsCompares :
    let s : State := { dividing with mark := .stale }
    s.relayClosed = false ∧ s.divider = ⟨[], some ⟨⟨.hold 7 0, 64512000, 77805⟩, 0, false⟩⟩ ∧ WavesOk s ∧
      s.plan? 0 = some plan0 ∧ (∀ w' ∈ s.waves, ∀ st' ∈ w'.steps, st'.state = .holding → w'.num = 7 ∧ st'.row = 0) ∧
      NothingQueued s ∧ ModeStands s ∧ s.mark = .stale ∧
      (s.step? 7 0).map (fun x => (x.state, x.cmpA)) = some (.holding, .pending) := by
  refine ⟨rfl, rfl, ⟨plansOk_site, by decide⟩, rfl, by decide, ⟨rfl, rfl, rfl⟩, ?_, rfl, by decide⟩
  unfold ModeStands; decide

/-- The divider with a hold time that has passed by its arrival, for wave 7's first step. -/
def late : State :=
  { dividing with
    divider := ⟨[], some ⟨⟨.hold 7 0, 0, 77805⟩, 0, false⟩⟩
    waves := [{ wave7 with steps := [{ step0 with cmpA := .pending }, step1] }] }

theorem witness_DividerFormsCompares_fresh :
    late.relayClosed = false ∧ WavesOk late ∧ late.mark = .fresh ∧ wave7.sector = some 0 ∧ late.plan? 0 = some plan0 ∧
      (∀ w' ∈ late.waves, ∀ st' ∈ w'.steps, st'.state = .holding → w'.num = 7 ∧ st'.row = 0) ∧
      (late.step? 7 0).map (fun x => (x.state, x.cmpA, x.hold, x.owesTest)) = some (.holding, .pending, 300, false) ∧
      max plan0.hmin (min 65535 (0 / 77805)) = 300 ∧
      (late.updStep 7 0 fun x => { x with cmpA := .value 300 }).canRelease 7 0 = true :=
  ⟨rfl, ⟨plansOk_site, by decide⟩, rfl, rfl, rfl, by decide⟩
/-- R78: a step whose release only the pending compare held back releases at the arrival. -/
theorem test_dividerArrival_late :
    ((after .dividerArrival { late with yholdLine := true }).step? 7 0).map (fun x => x.state) = some .releasing := by
  decide +kernel

/-- The divider with a hold time for wave 7's second step, which stands past its compare P. -/
def lateP : State :=
  { late with
    mark := .stale, divider := ⟨[], some ⟨⟨.hold 7 1, 64512000, 77805⟩, 0, false⟩⟩
    waves := [{ wave7 with steps :=
      [{ step0 with state := .done }, { step1 with state := .holding, hold := 1429, cmpA := .pending }] }] }

theorem witness_DividerFormsCompares_atP :
    WavesOk lateP ∧ (lateP.step? 7 1).map (fun x => (x.state, x.cmpA, x.owesTest)) = some (.holding, .pending, false) ∧
      (plan0.entries.map fun e => (e.row, e.slack)) = [(0, 0), (1, 600)] ∧
      min 65535 (min plan0.hmax (max plan0.hmin (min 65535 (64512000 / 77805))) + 600) ≤ 1429 :=
  ⟨⟨plansOk_site, by decide⟩, by decide⟩
/-- R78, R86: a step past P at the arrival is skipped there. -/
theorem test_dividerArrival_lateP : (after .dividerArrival lateP).counters.skips = 1 := by decide +kernel

/-- Wave 7 ready to release under an active yaw-hold line. -/
def ready : State := { waving with yholdLine := true }

theorem witness_StepReleaseQueues :
    ready.relayClosed = false ∧ WavesOk ready ∧ RowTableOk ready ∧ wave7 ∈ ready.waves ∧ step0 ∈ wave7.steps ∧
      ready.canRelease 7 0 = true ∧
      (∀ w' ∈ ready.waves, ∀ st' ∈ w'.steps, st'.state = .holding → w'.num = 7 ∧ st'.row = 0) ∧
      (∀ st' ∈ wave7.steps, st'.forced = true → st'.row = 0) ∧
      (∀ x ∈ ready.turbines, x.live.owner ≠ some (.low 7 0)) ∧ ready.high = [] ∧ ready.retargets = [] ∧
      ready.holdActive = true ∧ queuedAtRelease ready wave7.targets 0 = [1] ∧
      queuedAtRelease ready [(1, 5)] 0 = [] ∧ settledAtRelease ready [(1, 5)] 0 = [1] ∧
      (wave7.successor 0).map (fun x => x.state) = some .waiting ∧ hasTriggered ready wave7 step0 = false ∧
      (∃ o ∈ wave7.steps, o.row ≠ 0 ∧ o.state.terminal = false) ∧ waving.canRelease 7 1 = false :=
  ⟨rfl, wavesOk_waving, rowTableOk_site, by decide⟩
theorem witness_ComparesReached (a : Action) :
    let s := atP a
    s.relayClosed = false ∧ WavesOk s ∧ s.mark = .stale ∧ NothingQueued s ∧ ModeStands s ∧
      (s.step? 7 0).map (fun x => (x.state, x.cmpA, x.cmpP, x.forced, x.action)) =
        some (.holding, .value 300, some 900, false, a) ∧
      (∀ w' ∈ s.waves, ∀ st' ∈ w'.steps, st'.state = .holding → w'.num = 7 ∧ st'.row = 0) ∧
      (s.waves.map fun w => (w.successor 0).map fun x => x.state) = [some .waiting] := by
  cases a <;> refine ⟨rfl, ⟨plansOk_site, by decide⟩, rfl, ⟨rfl, rfl, rfl⟩, ?_, by decide, by decide, by decide⟩ <;>
    (unfold ModeStands; decide)
theorem witness_ComparesReached_atA :
    waving.canRelease 7 0 = true ∧ step0.cmpP = none ∧ step0.cmpA = .value 300 ∧ 300 ≤ step0.hold := by decide
theorem witness_ComparesReached_atP :
    let s := { atP .skip with mark := .fresh }
    s.relayClosed = false ∧ WavesOk s ∧ s.canRelease 7 0 = true ∧
      (s.step? 7 0).map (fun x => (x.state, x.cmpA, x.cmpP, x.hold, x.forced)) =
        some (.holding, .value 300, some 900, 900, false) ∧
      ∀ w' ∈ s.waves, ∀ st' ∈ w'.steps, st'.state = .holding → w'.num = 7 ∧ st'.row = 0 :=
  ⟨rfl, ⟨plansOk_site, by decide⟩, by decide⟩
/-- Wave 7 with its first step at compare P under a FRESH mark, its gate satisfied by no condition. -/
def deadlineGate (a : Action) (forced : Bool) : State :=
  { waving with
    waves := [{ wave7 with steps := [
      { step0 with hold := 900, cmpP := some 900, gate := .deadline, action := a, forced := forced }, step1] }] }

theorem witness_ComparesReached_fresh (a : Action) :
    let s := deadlineGate a false
    s.relayClosed = false ∧ WavesOk s ∧ s.mark = .fresh ∧ NothingQueued s ∧ ModeStands s ∧ s.canRelease 7 0 = false ∧
      (deadlineGate a true).canRelease 7 0 = true ∧
      (s.step? 7 0).map (fun x => (x.state, x.cmpA, x.cmpP, x.forced)) = some (.holding, .value 300, some 900, false) ∧
      ∀ w' ∈ s.waves, ∀ st' ∈ w'.steps, st'.state = .holding → w'.num = 7 ∧ st'.row = 0 := by
  cases a <;> refine ⟨rfl, ⟨plansOk_site, by decide⟩, rfl, ⟨rfl, rfl, rfl⟩, ?_, by decide, by decide, by decide, by decide⟩ <;>
    (unfold ModeStands; decide)
theorem witness_ComparesReached_forced :
    let s := { deadlineGate .release true with mark := .stale }
    NothingQueued s ∧ s.canRelease 7 0 = false ∧ (s.step? 7 0).map (fun x => x.forced) = some true :=
  ⟨⟨rfl, rfl, rfl⟩, by decide⟩
theorem witness_ComparesReached_gate :
    let s := { waving with waves := [{ wave7 with latchW := true, steps := [{ step0 with gate := .direction }, step1] }] }
    NothingQueued s ∧ s.mark = .fresh ∧ s.canRelease 7 0 = false ∧
      (s.step? 7 0).map (fun x => (x.cmpA, x.hold, x.cmpP)) = some (.value 300, 300, none) := ⟨⟨rfl, rfl, rfl⟩, by decide⟩
/-- R86: at P the forced mark releases the step in the same event. -/
theorem test_pReached_forces : ((after (.pReached 7 0) { deadlineGate .release false with yholdLine := true }).step? 7 0).map
    (fun x => (x.state, x.forced)) = some (.releasing, false) := by decide +kernel
theorem witness_GrantPlacesFrame :
    queued.relayClosed = false ∧ (queued.turbines.map fun y => y.node).Nodup ∧ queued.retargets = [] ∧
      queued.queueD.countP (fun f => f.own) < 8 ∧ queued.high = [] ∧ queued.low = [1] ∧
      queued.lowSlots + queued.highSlots < queued.params.budget ∧ queued.holdActive = false ∧
      (queued.turbine? 1).map (fun x => (x.live.owner, x.live.target)) = some (some (.low 7 0), some 80) := by decide
theorem witness_GrantPlacesFrame_owner :
    WavesOk queued ∧ (queued.step? 7 0).map (fun x => (x.state, x.rel)) = some (.releasing, none) ∧
      (queued.waves.map fun w => (w.sector, w.successor 0)) = [(some 0, some step1)] ∧ step1.state = .waiting ∧
      (queued.plan? 0).map (fun p => p.holdStart) = some .release := ⟨⟨plansOk_site, by decide⟩, by decide⟩
theorem witness_GrantPlacesFrame_high :
    queuedHigh.high = [1] ∧ queuedHigh.low = [] ∧ queuedHigh.retargets = [] ∧
      queuedHigh.lowSlots + queuedHigh.highSlots < queuedHigh.params.budget + queuedHigh.params.headroom ∧
      (queuedHigh.turbine? 1).map (fun x => (x.live.owner, x.live.target)) = some (some (.neutral 0), some 0) ∧
      site.grantable = none := by decide
/-- Node 1 waiting in the HIGH list and node 2 in the LOW list. -/
def queuedBoth : State :=
  { queuedHigh with
    turbines := queuedHigh.turbines.take 1 ++ [{ node2 with live := { node2.live with
      move := .queued, owner := some (.low 7 1), target := some 40 } }]
    low := [2], waveCounter := 8
    waves := [{ wave7 with steps := [{ step0 with state := .skipped }, { step1 with state := .releasing, needed := 1 }] }] }

/-- R128: the HIGH request goes first, then the LOW one, each in a frame of its own. -/
theorem test_grant_both : ((after .grant queuedBoth).queueD.map fun f => f.frame.payload[8]?) = [some 1, some 2] := by
  decide +kernel
theorem witness_GrantPlacesFrame_longer :
    queuedBoth.grantable = some (1, .high) ∧ (∀ n ∈ queuedBoth.high ++ queuedBoth.low, ∃ y ∈ queuedBoth.turbines, y.node = n) ∧
      queuedBoth.retargets = [] ∧ { queuedBoth with queueD := List.replicate 7 ⟨true, sealFrame 0 0 0 []⟩ }.grantable =
        some (1, .high) ∧ { queuedBoth with high := [] }.grantable = some (2, .low) ∧
      { queuedBoth with high := [], yholdLine := true }.grantable = none := by decide
theorem witness_RetargetPlacesFrame :
    retargeting.relayClosed = false ∧ (retargeting.turbines.map fun y => y.node).Nodup ∧ retargeting.retargets = [1] ∧
      retargeting.high = [] ∧ retargeting.low = [] ∧ retargeting.queueD.countP (fun f => f.own) < 8 ∧
      site.retargets = [] := by decide
theorem witness_WaveAndModeEnds :
    finishing.relayClosed = false ∧ finishing.waves.length = 1 ∧ (∀ w ∈ finishing.waves, w.finished = true) ∧
      NoHolding finishing ∧ NothingQueued finishing ∧ finishing.mode = .drain ∧
      (∀ w ∈ waving.waves, w.num = 7 → w.finished = false) ∧ finishing.neutral.active = false := by
  refine ⟨rfl, rfl, by decide, ?_, ⟨rfl, rfl, rfl⟩, rfl, by decide, rfl⟩
  unfold NoHolding; decide

end Sys2Proof.Tests
end

namespace Sys2Proof.Machine

/-! ### The reset state -/

/-- No plan slot holds a plan at reset (R39). -/
theorem plan?_reset (k : Nat) : State.reset.plan? k = none := by
  unfold State.plan? State.reset
  by_cases h : k < 24 <;> simp [h]

/-- Every row record is empty and unmasked at reset (R18, R19). -/
theorem row_reset (r : Nat) : State.reset.row r = {} := by
  unfold State.row State.reset
  by_cases h : r < 16 <;> simp [h]

theorem members_reset (r : Nat) : State.reset.members r = [] := by rw [State.members, row_reset]

theorem masked_reset (r : Nat) : State.reset.masked r = false := by rw [State.masked, row_reset]

theorem plansOk_reset : PlansOk State.reset := by
  intro p hp
  simp [State.reset] at hp

theorem wavesOk_reset : WavesOk State.reset := ⟨plansOk_reset, by decide⟩

theorem oneActiveStep_reset : OneActiveStep State.reset :=
  ⟨wavesOk_reset, by simp [State.reset], by simp [State.reset], by simp [State.reset]⟩

/-- A turbine table without entries is in order with row records without members (R1, R18). -/
theorem rowTableOk_of_empty {s : State} (ht : s.turbines = []) (hm : ∀ r, s.members r = []) : RowTableOk s := by
  simp [RowTableOk, ht, hm]

theorem rowTableOk_reset : RowTableOk State.reset := rowTableOk_of_empty rfl members_reset

theorem arbiterOk_reset : ArbiterOk State.reset := by
  refine ⟨by unfold WithinBudget; decide, rowTableOk_reset, oneActiveStep_reset, by unfold NeutralOk; decide,
    by unfold CountsOk; decide, by simp [State.reset], rfl, rfl, ?_, ?_, ?_, by decide, by decide⟩
  all_goals simp [Names, State.reset]

/-- Settles O2: each invariant holds of the reset state. -/
theorem invariantsHoldAtReset : Obligations.InvariantsHoldAtReset := by
  refine ⟨by unfold QueueBounds; decide, by unfold ParamRanges; decide, ?_, wavesOk_reset, ⟨wavesOk_reset, ?_⟩,
    oneActiveStep_reset, ?_, by unfold WithinBudget; decide, rowTableOk_reset, arbiterOk_reset⟩
  · refine ⟨by decide, by decide, ?_, ?_, ?_⟩ <;> simp [State.reset]
  · simp [State.reset]
  · exact fun _ => by decide

/-! ### Power -/

/-- The release of RSTN gives the reset state with the levels found (R143, R156, R171). -/
theorem powered_eq (s : State) (straps : Byte) (storm yhold linkU linkD : Bool) :
    s.powered straps storm yhold linkU linkD =
      { State.reset with
        nodeAddr := straps, station := s.station, stormLine := storm, storm := storm, yholdLine := yhold
        linkU := linkU, linkD := linkD, draws := s.draws, pending := s.pending } := rfl

/-- Settles O44: the release of RSTN gives the reset state with the levels found, field by field; its holding closes the relay. -/
theorem powerOnAndHold : Obligations.PowerOnAndHold := by
  refine ⟨fun s straps storm yhold linkU linkD t => ?_, rfl, rfl, rfl, rfl, rfl, rfl, rfl,
    fun r => ⟨members_reset r, masked_reset r⟩, rfl, rfl, rfl, rfl, plan?_reset, rfl, rfl, rfl, rfl, rfl, rfl,
    ⟨rfl, rfl, rfl⟩, rfl, rfl, rfl, rfl, rfl, rfl, rfl, rfl, by decide, fun s h => ?_⟩
  · change Host.Outcome.next _ = Host.Outcome.next t ↔ _
    rw [powered_eq, Host.Outcome.next.injEq, eq_comm]
  · exact ⟨Config.motionWhileHeld s.draws, by simp [exec, execRstnHold, State.whenRunning, h]⟩

/-! ### Value formats (R12 to R15) -/

/-- The rounding of R13: within five of ten times the tenth, and at exactly five away from zero. -/
theorem roundTenth_spec (x : Int) :
    (10 * roundTenth x - x).natAbs ≤ 5 ∧ ((10 * roundTenth x - x).natAbs = 5 → x.natAbs < (10 * roundTenth x).natAbs) := by
  unfold roundTenth
  split <;> omega

theorem roundTenth_ten_mul (x : Int) : roundTenth (10 * x) = x := by
  unfold roundTenth
  split <;> omega

theorem sat300_of_mem {x : Int} (h1 : -300 ≤ x) (h2 : x ≤ 300) : sat300 x = x := by
  unfold sat300
  omega

/-- A 16-bit word read as signed gives back what was written, in its range. -/
theorem toInt_ofInt_16 {x : Int} (h1 : -32768 ≤ x) (h2 : x ≤ 32767) : (BitVec.ofInt 16 x).toInt = x := by
  rw [BitVec.toInt_ofInt, Int.bmod_def]
  split <;> omega

theorem toNat_ofInt_16 {x : Int} (h1 : 0 ≤ x) (h2 : x ≤ 65535) : ((BitVec.ofInt 16 x).toNat : Int) = x := by
  rw [BitVec.toNat_ofInt]
  omega

/-- A commanded value in a format's word (R12, R13, R14). -/
theorem command_value {x : Int} (h1 : -300 ≤ x) (h2 : x ≤ 300) :
    (Format.d1.command x).toInt = x ∧ (Format.d2.command x).toInt = 10 * x ∧
      ((Format.b1.command x).toNat : Int) = 32768 + x :=
  ⟨toInt_ofInt_16 (by omega) (by omega), toInt_ofInt_16 (by omega) (by omega), toNat_ofInt_16 (by omega) (by omega)⟩

/-- A commanded value in range is received as itself, in every format. -/
theorem receive_command (f : Format) {x : Int} (h1 : -300 ≤ x) (h2 : x ≤ 300) : f.receive (f.command x) = x := by
  obtain ⟨hd1, hd2, hb1⟩ := command_value h1 h2
  cases f with
  | d1 => rw [Format.receive, hd1, sat300_of_mem h1 h2]
  | d2 => rw [Format.receive, hd2, roundTenth_ten_mul, sat300_of_mem h1 h2]
  | b1 => rw [Format.receive, hb1, show (32768 + x - 32768 : Int) = x by omega, sat300_of_mem h1 h2]

/-- Settles O16: the three formats as R12, R13 and R14 write them, the return trip of a command, and the clamp of R15. -/
theorem valueFormats : Obligations.ValueFormats := by
  refine ⟨fun _ => rfl, fun v => ?_, fun _ => rfl, fun x h1 h2 => ?_, fun _ _ => rfl⟩
  · exact ⟨roundTenth v.toInt, rfl, roundTenth_spec v.toInt⟩
  · obtain ⟨hd1, hd2, hb1⟩ := command_value h1 h2
    exact ⟨hd1, hd2, hb1, fun f => receive_command f h1 h2⟩

end Sys2Proof.Machine

namespace Sys2Proof.Machine

/-! ### What an offered frame and a delivered request leave alone -/

/-- Only U's queue and its drop counter follow an offered frame (R167). -/
theorem offered_eq (f : EthFrame) (s : State) :
    offered f s = { s with queueU := (offered f s).queueU, ownDropped := (offered f s).ownDropped } := by
  unfold offered
  split <;> rfl

section
variable (e : Env) (code : Byte) (r : Result) (fields : List Byte) (s : State)

/-- Only U's queue and its drop counter follow an answer. -/
theorem answered_eq :
    answered e code r fields s =
      { s with queueU := (answered e code r fields s).queueU, ownDropped := (answered e code r fields s).ownDropped } :=
  offered_eq _ s

/-- Only the lapse timer and the supervisor address follow a delivery (R158, R169). -/
theorem delivered_eq :
    delivered e s =
      { s with lapse := (delivered e s).lapse, lapseDue := (delivered e s).lapseDue, supervisor := e.ethSrc } := by
  rw [delivered, heardFrom_lapse]

@[simp] theorem answered_relayClosed : (answered e code r fields s).relayClosed = s.relayClosed := by rw [answered_eq]
@[simp] theorem answered_stormLine : (answered e code r fields s).stormLine = s.stormLine := by rw [answered_eq]
@[simp] theorem answered_yholdLine : (answered e code r fields s).yholdLine = s.yholdLine := by rw [answered_eq]
@[simp] theorem answered_motion : (answered e code r fields s).motion = s.motion := by rw [answered_eq]
@[simp] theorem answered_nodeAddr : (answered e code r fields s).nodeAddr = s.nodeAddr := by rw [answered_eq]
@[simp] theorem answered_station : (answered e code r fields s).station = s.station := by rw [answered_eq]
@[simp] theorem answered_params : (answered e code r fields s).params = s.params := by rw [answered_eq]
@[simp] theorem answered_turbines : (answered e code r fields s).turbines = s.turbines := by rw [answered_eq]
@[simp] theorem answered_rows : (answered e code r fields s).rows = s.rows := by rw [answered_eq]
@[simp] theorem answered_sources : (answered e code r fields s).sources = s.sources := by rw [answered_eq]
@[simp] theorem answered_filter : (answered e code r fields s).filter = s.filter := by rw [answered_eq]
@[simp] theorem answered_mark : (answered e code r fields s).mark = s.mark := by rw [answered_eq]
@[simp] theorem answered_sector : (answered e code r fields s).sector = s.sector := by rw [answered_eq]
@[simp] theorem answered_plans : (answered e code r fields s).plans = s.plans := by rw [answered_eq]
@[simp] theorem answered_waves : (answered e code r fields s).waves = s.waves := by rw [answered_eq]
@[simp] theorem answered_waveCounter : (answered e code r fields s).waveCounter = s.waveCounter := by rw [answered_eq]
@[simp] theorem answered_quiet : (answered e code r fields s).quiet = s.quiet := by rw [answered_eq]
@[simp] theorem answered_neutral : (answered e code r fields s).neutral = s.neutral := by rw [answered_eq]
@[simp] theorem answered_divider : (answered e code r fields s).divider = s.divider := by rw [answered_eq]
@[simp] theorem answered_timeBase : (answered e code r fields s).timeBase = s.timeBase := by rw [answered_eq]
@[simp] theorem answered_high : (answered e code r fields s).high = s.high := by rw [answered_eq]
@[simp] theorem answered_low : (answered e code r fields s).low = s.low := by rw [answered_eq]
@[simp] theorem answered_retargets : (answered e code r fields s).retargets = s.retargets := by rw [answered_eq]
@[simp] theorem answered_lowSlots : (answered e code r fields s).lowSlots = s.lowSlots := by rw [answered_eq]
@[simp] theorem answered_highSlots : (answered e code r fields s).highSlots = s.highSlots := by rw [answered_eq]
@[simp] theorem answered_mode : (answered e code r fields s).mode = s.mode := by rw [answered_eq]
@[simp] theorem answered_cause : (answered e code r fields s).cause = s.cause := by rw [answered_eq]
@[simp] theorem answered_storm : (answered e code r fields s).storm = s.storm := by rw [answered_eq]
@[simp] theorem answered_linkU : (answered e code r fields s).linkU = s.linkU := by rw [answered_eq]
@[simp] theorem answered_linkD : (answered e code r fields s).linkD = s.linkD := by rw [answered_eq]
@[simp] theorem answered_queueD : (answered e code r fields s).queueD = s.queueD := by rw [answered_eq]
@[simp] theorem answered_countersU : (answered e code r fields s).countersU = s.countersU := by rw [answered_eq]
@[simp] theorem answered_countersD : (answered e code r fields s).countersD = s.countersD := by rw [answered_eq]
@[simp] theorem answered_discardedManage : (answered e code r fields s).discardedManage = s.discardedManage := by rw [answered_eq]
@[simp] theorem answered_counters : (answered e code r fields s).counters = s.counters := by rw [answered_eq]
@[simp] theorem answered_estimateDue : (answered e code r fields s).estimateDue = s.estimateDue := by rw [answered_eq]
@[simp] theorem answered_quietDue : (answered e code r fields s).quietDue = s.quietDue := by rw [answered_eq]
@[simp] theorem answered_draws : (answered e code r fields s).draws = s.draws := by rw [answered_eq]
@[simp] theorem answered_pending : (answered e code r fields s).pending = s.pending := by rw [answered_eq]

@[simp] theorem delivered_relayClosed : (delivered e s).relayClosed = s.relayClosed := by rw [delivered_eq]
@[simp] theorem delivered_stormLine : (delivered e s).stormLine = s.stormLine := by rw [delivered_eq]
@[simp] theorem delivered_yholdLine : (delivered e s).yholdLine = s.yholdLine := by rw [delivered_eq]
@[simp] theorem delivered_motion : (delivered e s).motion = s.motion := by rw [delivered_eq]
@[simp] theorem delivered_nodeAddr : (delivered e s).nodeAddr = s.nodeAddr := by rw [delivered_eq]
@[simp] theorem delivered_station : (delivered e s).station = s.station := by rw [delivered_eq]
@[simp] theorem delivered_params : (delivered e s).params = s.params := by rw [delivered_eq]
@[simp] theorem delivered_turbines : (delivered e s).turbines = s.turbines := by rw [delivered_eq]
@[simp] theorem delivered_rows : (delivered e s).rows = s.rows := by rw [delivered_eq]
@[simp] theorem delivered_sources : (delivered e s).sources = s.sources := by rw [delivered_eq]
@[simp] theorem delivered_filter : (delivered e s).filter = s.filter := by rw [delivered_eq]
@[simp] theorem delivered_mark : (delivered e s).mark = s.mark := by rw [delivered_eq]
@[simp] theorem delivered_sector : (delivered e s).sector = s.sector := by rw [delivered_eq]
@[simp] theorem delivered_plans : (delivered e s).plans = s.plans := by rw [delivered_eq]
@[simp] theorem delivered_waves : (delivered e s).waves = s.waves := by rw [delivered_eq]
@[simp] theorem delivered_waveCounter : (delivered e s).waveCounter = s.waveCounter := by rw [delivered_eq]
@[simp] theorem delivered_quiet : (delivered e s).quiet = s.quiet := by rw [delivered_eq]
@[simp] theorem delivered_neutral : (delivered e s).neutral = s.neutral := by rw [delivered_eq]
@[simp] theorem delivered_divider : (delivered e s).divider = s.divider := by rw [delivered_eq]
@[simp] theorem delivered_timeBase : (delivered e s).timeBase = s.timeBase := by rw [delivered_eq]
@[simp] theorem delivered_high : (delivered e s).high = s.high := by rw [delivered_eq]
@[simp] theorem delivered_low : (delivered e s).low = s.low := by rw [delivered_eq]
@[simp] theorem delivered_retargets : (delivered e s).retargets = s.retargets := by rw [delivered_eq]
@[simp] theorem delivered_lowSlots : (delivered e s).lowSlots = s.lowSlots := by rw [delivered_eq]
@[simp] theorem delivered_highSlots : (delivered e s).highSlots = s.highSlots := by rw [delivered_eq]
@[simp] theorem delivered_mode : (delivered e s).mode = s.mode := by rw [delivered_eq]
@[simp] theorem delivered_cause : (delivered e s).cause = s.cause := by rw [delivered_eq]
@[simp] theorem delivered_storm : (delivered e s).storm = s.storm := by rw [delivered_eq]
@[simp] theorem delivered_linkU : (delivered e s).linkU = s.linkU := by rw [delivered_eq]
@[simp] theorem delivered_linkD : (delivered e s).linkD = s.linkD := by rw [delivered_eq]
@[simp] theorem delivered_queueD : (delivered e s).queueD = s.queueD := by rw [delivered_eq]
@[simp] theorem delivered_countersU : (delivered e s).countersU = s.countersU := by rw [delivered_eq]
@[simp] theorem delivered_countersD : (delivered e s).countersD = s.countersD := by rw [delivered_eq]
@[simp] theorem delivered_discardedManage : (delivered e s).discardedManage = s.discardedManage := by rw [delivered_eq]
@[simp] theorem delivered_counters : (delivered e s).counters = s.counters := by rw [delivered_eq]
@[simp] theorem delivered_estimateDue : (delivered e s).estimateDue = s.estimateDue := by rw [delivered_eq]
@[simp] theorem delivered_quietDue : (delivered e s).quietDue = s.quietDue := by rw [delivered_eq]
@[simp] theorem delivered_draws : (delivered e s).draws = s.draws := by rw [delivered_eq]
@[simp] theorem delivered_pending : (delivered e s).pending = s.pending := by rw [delivered_eq]
@[simp] theorem delivered_queueU : (delivered e s).queueU = s.queueU := by rw [delivered_eq]
@[simp] theorem delivered_ownDropped : (delivered e s).ownDropped = s.ownDropped := by rw [delivered_eq]

end

/-! ### RESTART (R161) -/

/-- Clearing the masks of some rows changes the row table alone. -/
theorem foldl_clearMask_eq (l : List Nat) (s : State) :
    l.foldl (fun s r => s.setMask r false) s = { s with rows := (l.foldl (fun s r => s.setMask r false) s).rows } := by
  induction l generalizing s with
  | nil => rfl
  | cons r l ih => exact ih (s.setMask r false)

/-- The record of a row after the masks of some rows are cleared. -/
theorem row_foldl_clearMask (l : List Nat) (hl : ∀ r ∈ l, r < 16) (s : State) (q : Nat) :
    (l.foldl (fun s r => s.setMask r false) s).row q = if q ∈ l then { s.row q with mask := false } else s.row q := by
  induction l generalizing s with
  | nil => simp
  | cons r l ih =>
    rw [List.foldl_cons, ih (fun x hx => hl x (List.mem_cons_of_mem _ hx)) (s.setMask r false), State.setMask,
      State.row_updRow s r q _ (hl r List.mem_cons_self)]
    by_cases h1 : q ∈ l <;> by_cases h2 : q = r <;> simp [h1, h2]

/-- Two row tables with the same records are the same. -/
theorem rows_ext {s t : State} (h : ∀ r, r < 16 → s.row r = t.row r) : s.rows = t.rows := by
  ext r hr : 1
  simpa [State.row, hr] using h r hr

/-- Every mask flag is cleared, and nothing else (R19). -/
theorem State.clearMasks_eq (s : State) : s.clearMasks = { s with rows := s.rows.map fun x => { x with mask := false } } := by
  have hrows : s.clearMasks.rows = s.rows.map fun x => { x with mask := false } := by
    refine rows_ext (t := { s with rows := s.rows.map fun x => { x with mask := false } }) fun r hr => ?_
    rw [State.clearMasks, row_foldl_clearMask _ (fun x hx => List.mem_range.1 hx) s r, if_pos (List.mem_range.2 hr)]
    simp [State.row, hr]
  rw [← hrows]
  exact foldl_clearMask_eq _ s

/-- What RESTART leaves of a live record (R6, R73). -/
theorem Live.toIdle_cleared (l : Live) :
    { l.toIdle with stalled := false, fault := false } =
      { l with move := .idle, slot := none, owner := none, deadline := .absent, stalled := false, fault := false } := rfl

/-- Settles O42: RESTART answers first and then clears block by block what R161 lists. -/
theorem restartClears : Obligations.RestartClears := by
  intro s e hs
  change Host.Outcome.next (s.request e .restart) = _
  rw [State.request_served hs, State.execute, State.doRestart, State.reply_ok, State.restartBlocks, State.clearMasks_eq,
    State.notifyMode, State.notify_eq_noticed]
  simp only [State.clearFlags, State.unprime, State.clearSteering, State.clearDivider, State.stopLapse, State.setMode,
    List.map_map, Function.comp_def, Live.toIdle_cleared, answered_turbines, answered_rows, answered_sources,
    answered_divider, answered_params, answered_stormLine, delivered_turbines, delivered_rows, delivered_sources,
    delivered_divider, delivered_params, delivered_stormLine] <;> rfl

end Sys2Proof.Machine

namespace Sys2Proof.Machine

/-! ### COUNT (R113) -/

/-- A fold whose every round leaves the state as it is. -/
theorem foldl_eq_self {α β : Type} {f : β → α → β} {l : List α} {b : β} (h : ∀ a ∈ l, f b a = b) : l.foldl f b = b := by
  induction l with
  | nil => rfl
  | cons a l ih =>
    rw [List.foldl_cons, h a List.mem_cons_self]
    exact ih fun x hx => h x (List.mem_cons_of_mem _ hx)

theorem State.turbine?_mem {s : State} {n : Nat} {t : Turbine} (h : s.turbine? n = some t) : t ∈ s.turbines ∧ t.node = n :=
  ⟨List.mem_of_find?_eq_some h, by simpa using List.find?_some h⟩

theorem State.wave?_mem {s : State} {n : Nat} {w : Wave} (h : s.wave? n = some w) : w ∈ s.waves ∧ w.num = n :=
  ⟨List.mem_of_find?_eq_some h, by simpa using List.find?_some h⟩

theorem Wave.step?_mem {w : Wave} {r : Nat} {st : WaveStep} (h : w.step? r = some st) : st ∈ w.steps ∧ st.row = r :=
  ⟨List.mem_of_find?_eq_some h, by simpa using List.find?_some h⟩

theorem State.step?_mem {s : State} {n r : Nat} {st : WaveStep} (h : s.step? n r = some st) :
    ∃ w ∈ s.waves, w.num = n ∧ st ∈ w.steps ∧ st.row = r := by
  obtain ⟨w, hw, hst⟩ := Option.bind_eq_some_iff.1 h
  obtain ⟨hm, hn⟩ := State.wave?_mem hw
  obtain ⟨hs, hr⟩ := Wave.step?_mem hst
  exact ⟨w, hm, hn, hs, hr⟩

/-- With no deadline reached, the deadlines of a count change nothing. -/
theorem State.takeDeadline_none {s : State} (h : ∀ x ∈ s.turbines, x.live.deadlineReached s.timeBase = false) (n : Nat) :
    s.takeDeadline n = s := by
  unfold State.takeDeadline
  split
  · rename_i t ht
    simp [h t (State.turbine?_mem ht).1]
  · rfl

/-- With no test owed, the owed tests of a count change nothing. -/
theorem State.takeOwedTest_none {s : State}
    (h : ∀ w ∈ s.waves, ∀ st ∈ w.steps, st.owesTest = false ∧ st.owesDeadline = false) (k : Nat × Nat) :
    s.takeOwedTest k = s := by
  have hnone : s.owesTest k = false ∧ s.owesDeadline k = false := by
    unfold State.owesTest State.owesDeadline
    cases hk : s.step? k.1 k.2 with
    | none => simp
    | some st =>
      obtain ⟨w, hw, -, hst, -⟩ := State.step?_mem hk
      simpa using h w hw st hst
  simp [State.takeOwedTest, hnone]

/-- With nothing of the last count left to take, the next count begins on the state as it stands. -/
theorem State.closeCount_nothing {s : State} (he : s.estimateDue = false) (hq : s.quietDue = false) (hl : s.lapseDue = false)
    (hd : ∀ x ∈ s.turbines, x.live.deadlineReached s.timeBase = false)
    (ho : ∀ w ∈ s.waves, ∀ st ∈ w.steps, st.owesTest = false ∧ st.owesDeadline = false) : s.closeCount = s := by
  have h1 : (s.turbines.map fun t => t.node).foldl State.takeDeadline s = s :=
    foldl_eq_self fun n _ => State.takeDeadline_none hd n
  have h2 : s.stepKeys.foldl State.takeOwedTest s = s := foldl_eq_self fun k _ => State.takeOwedTest_none ho k
  simp only [State.closeCount, h1, h2, State.takeQuiet, hq, State.takeLapse, hl, State.takeEstimate, he, Bool.false_eq_true,
    if_false]

/-- A counter passes a compare at a count exactly when it steps on to it. -/
theorem sat16_passes (c h : Nat) :
    (decide (c ≤ sat16 (h + 1)) && !decide (c ≤ h)) = decide (h < 65535 ∧ some c = some (h + 1)) := by
  unfold sat16
  rw [Bool.eq_iff_iff]
  simp only [Bool.and_eq_true, decide_eq_true_eq, Bool.not_eq_true', decide_eq_false_iff_not,
    Option.some.injEq]
  omega

/-- A step at a count, where it owes no test (R76, R85, R86). -/
theorem WaveStep.tick_eq {st : WaveStep} (h : st.owesTest = false ∧ st.owesDeadline = false) :
    st.tick =
      if st.state = .holding ∨ st.state = .releasing ∨ st.state = .moving then
        { st with
          hold := sat16 (st.hold + 1)
          owesTest := decide (st.state = .holding ∧ st.hold < 65535 ∧
            (match st.cmpA with | .value a => some a | .absent | .pending => none) = some (st.hold + 1))
          owesDeadline := decide (st.state = .holding ∧ st.hold < 65535 ∧ st.cmpP = some (st.hold + 1)) }
      else st := by
  obtain ⟨ht, hd⟩ := h
  unfold WaveStep.tick
  split
  case h_1 hs =>
    have hA : (WaveStep.reachedA { st with hold := sat16 (st.hold + 1) } && !st.reachedA) =
        decide (st.state = .holding ∧ st.hold < 65535 ∧
          (match st.cmpA with | .value a => some a | .absent | .pending => none) = some (st.hold + 1)) := by
      cases hc : st.cmpA <;> simp only [WaveStep.reachedA, hc, sat16_passes, hs] <;> simp
    have hP : (WaveStep.reachedP { st with hold := sat16 (st.hold + 1) } && !st.reachedP) =
        decide (st.state = .holding ∧ st.hold < 65535 ∧ st.cmpP = some (st.hold + 1)) := by
      cases hc : st.cmpP <;> simp only [WaveStep.reachedP, hc, sat16_passes, hs] <;> simp
    rw [if_pos (Or.inl hs)]
    simp only [ht, hd, Bool.false_or, ← hA, ← hP]
  all_goals rename_i hs; simp [hs, ht, hd]

/-- Settles O45: with nothing left to take, a count is the tick, whose parts are compared one by one. -/
theorem countAdvances : Obligations.CountAdvances := by
  intro s hr he hq hl hd ho
  have hx : exec .count s = .next s.tick := by
    change Host.Outcome.next (s.whenRunning s.closeCount.tick) = _
    rw [State.closeCount_nothing he hq hl hd ho]
    simp [State.whenRunning, hr]
  refine ⟨s.tick, hx, ?_, ?_, ?_, ?_⟩
  · have hw : s.waves.map (fun w => { w with steps := w.steps.map WaveStep.tick }) = _ :=
      List.map_congr_left fun w hw => by
        rw [List.map_congr_left fun st hst => WaveStep.tick_eq (ho w hw st hst)]
    have hlapse : s.lapse.tick = match s.lapse with | .running v => .running (min 65535 (v + 1)) | x => x := by
      cases s.lapse <;> rfl
    simp only [State.tick, hw, hlapse, sat16] <;> rfl
  · simp [State.tick, he]
  · simp only [State.tick, hq, Bool.false_or]
    cases s.quiet <;> simp
  · simp only [State.tick, hl, Bool.false_or]
    cases s.lapse <;> simp [Lapse.tick, Lapse.reached, sat16]

end Sys2Proof.Machine

namespace Sys2Proof.Machine

/-! ### Rows and member lists (R1, R18) -/

/-- There are sixteen row records; beyond them a row has no members and no mask. -/
theorem State.row_of_ge (s : State) {r : Nat} (h : 16 ≤ r) : s.row r = {} := by simp [State.row, h]

theorem State.row_updRow_ge (s : State) {r q : Nat} (g : Row → Row) (hr : 16 ≤ r) : (s.updRow r g).row q = s.row q := by
  have h : (s.updRow r g).rows = s.rows := by
    ext i hi
    simp [State.updRow, show ¬ r = i by omega]
  simp only [State.row, h]

/-- A node that leaves a row's list leaves every mask flag as it is (R4). -/
@[simp] theorem State.masked_leaveRow (s : State) (r node q : Nat) : (s.leaveRow r node).masked q = s.masked q := by
  unfold State.masked State.leaveRow
  rcases Nat.lt_or_ge r 16 with h | h
  · rw [State.row_updRow s r q _ h]
    split
    · rename_i e; rw [e]
    · rfl
  · rw [State.row_updRow_ge s _ h]

/-- The member lists after a node has left the list of a row that it alone can stand in (R4, R18). -/
theorem State.members_leaveRow {s : State} {r node : Nat} (h : ∀ q, q ≠ r → node ∉ s.members q) (hr : r < 16) (q : Nat) :
    (s.leaveRow r node).members q = (s.members q).filter fun n => n != node := by
  unfold State.leaveRow State.members at *
  rw [State.row_updRow s r q _ hr]
  split
  · rename_i e; rw [e]
  · rename_i e
    rw [List.filter_eq_self.2]
    intro a ha
    simpa using fun c : a = node => h q e (c ▸ ha)

@[simp] theorem State.leaveOldRow_turbines (s : State) (node : Nat) : (s.leaveOldRow node).turbines = s.turbines := by
  unfold State.leaveOldRow
  split <;> rfl

@[simp] theorem State.masked_leaveOldRow (s : State) (node q : Nat) : (s.leaveOldRow node).masked q = s.masked q := by
  unfold State.leaveOldRow
  split <;> simp

@[simp] theorem State.columnOf_leaveOldRow (s : State) (node n : Nat) : (s.leaveOldRow node).columnOf n = s.columnOf n := by
  simp [State.columnOf, State.turbine?]

/-- A node that no entry has is found nowhere. -/
theorem State.turbine?_none {s : State} {n : Nat} (h : s.turbine? n = none) : ∀ x ∈ s.turbines, x.node ≠ n := by
  simpa [State.turbine?] using h

namespace RowTableOk

variable {s : State} (h : RowTableOk s)
include h

theorem nodes_nodup : (s.turbines.map fun t => t.node).Nodup := h.1.imp fun hab => Nat.ne_of_lt hab

/-- An entry is determined by its node address (R1). -/
theorem node_inj {t u : Turbine} (ht : t ∈ s.turbines) (hu : u ∈ s.turbines) (e : t.node = u.node) : t = u :=
  List.inj_on_of_nodup_map h.nodes_nodup ht hu e

theorem turbine?_of_mem {t : Turbine} (ht : t ∈ s.turbines) : s.turbine? t.node = some t := by
  cases hf : s.turbine? t.node with
  | none => exact absurd rfl (State.turbine?_none hf t ht)
  | some u =>
    obtain ⟨hu, e⟩ := State.turbine?_mem hf
    rw [h.node_inj hu ht e]

theorem turbine?_iff {n : Nat} {t : Turbine} : s.turbine? n = some t ↔ t ∈ s.turbines ∧ t.node = n :=
  ⟨State.turbine?_mem, fun ⟨hm, e⟩ => e ▸ h.turbine?_of_mem hm⟩

theorem columnOf_of_mem {t : Turbine} (ht : t ∈ s.turbines) : s.columnOf t.node = t.config.column := by
  simp [State.columnOf, h.turbine?_of_mem ht]

/-- A row's members are the nodes of the entries that name it (R18). -/
theorem mem_members {r n : Nat} (hr : r ≤ 15) : n ∈ s.members r ↔ ∃ t ∈ s.turbines, t.node = n ∧ t.config.row = r :=
  (h.2.2 r hr).1 n

/-- An entry's node stands in the list of its own row and in no other. -/
theorem mem_members_of_mem {t : Turbine} (ht : t ∈ s.turbines) {r : Nat} : t.node ∈ s.members r ↔ t.config.row = r := by
  rcases Nat.lt_or_ge r 16 with hr | hr
  · rw [h.mem_members (by omega)]
    exact ⟨fun ⟨u, hu, e, er⟩ => h.node_inj hu ht e ▸ er, fun er => ⟨t, ht, rfl, er⟩⟩
  · have hrow := (h.2.1 t ht).2.2.1
    simp only [State.members, s.row_of_ge hr, List.not_mem_nil, false_iff]
    omega

/-- The member lists in column order, said with the columns of the entries. -/
theorem members_columns {r : Nat} (hr : r ≤ 15) : (s.members r).Pairwise fun a b => s.columnOf a < s.columnOf b := by
  refine List.Pairwise.imp_of_mem ?_ (h.2.2 r hr).2
  intro a b ha hb hab
  obtain ⟨t, ht, rfl, -⟩ := (h.mem_members hr).1 ha
  obtain ⟨u, hu, rfl, -⟩ := (h.mem_members hr).1 hb
  rw [h.columnOf_of_mem ht, h.columnOf_of_mem hu]
  exact hab t ht u hu rfl rfl

/-- The member lists after a node has left the row that its entry names, if it has one (R3, R4). -/
theorem members_leaveOldRow (node q : Nat) :
    (s.leaveOldRow node).members q = (s.members q).filter fun n => n != node := by
  unfold State.leaveOldRow
  cases hf : s.turbine? node with
  | some t =>
    obtain ⟨ht, rfl⟩ := State.turbine?_mem hf
    exact State.members_leaveRow (fun q hq hm => hq ((h.mem_members_of_mem ht).1 hm).symm)
      (Nat.lt_succ_of_le (h.2.1 t ht).2.2.1) q
  | none =>
    rw [List.filter_eq_self.2]
    intro a ha
    rcases Nat.lt_or_ge q 16 with hq | hq
    · obtain ⟨t, ht, rfl, -⟩ := (h.mem_members (by omega)).1 ha
      simpa using State.turbine?_none hf t ht
    · simp [State.members, s.row_of_ge hq] at ha

end RowTableOk

/-! ### DROP TURBINE (R4) -/

/-- A drop takes the entry at its node away, and the node out of the list of its row (R4). -/
theorem State.dropEntry_eq {s : State} {t : Turbine} (ht : s.turbine? t.node = some t) :
    s.dropEntry t =
      { s with turbines := s.turbines.filter fun x => x.node != t.node, rows := (s.leaveOldRow t.node).rows } := by
  simp only [State.leaveOldRow, ht]
  rfl

/-- A drop keeps the table in node order and the member lists true to it. -/
theorem rowTableOk_dropEntry {s : State} {t : Turbine} (h : RowTableOk s) (ht : s.turbine? t.node = some t) :
    RowTableOk (s.dropEntry t) := by
  have hm : ∀ q, (s.dropEntry t).members q = (s.members q).filter fun n => n != t.node := fun q => by
    rw [State.dropEntry_eq ht]; exact h.members_leaveOldRow t.node q
  have hts : (s.dropEntry t).turbines = s.turbines.filter fun x => x.node != t.node := rfl
  refine ⟨?_, fun x hx => h.2.1 x (List.mem_filter.1 (hts ▸ hx)).1, fun r hr => ⟨fun n => ?_, ?_⟩⟩
  · rw [hts]; exact h.1.sublist (List.filter_sublist.map _)
  · rw [hm, List.mem_filter, h.mem_members hr, hts]
    simp only [List.mem_filter, bne_iff_ne, ne_eq]
    exact ⟨fun ⟨⟨x, hx, e, er⟩, hn⟩ => ⟨x, ⟨hx, e ▸ hn⟩, e, er⟩, fun ⟨x, ⟨hx, hn⟩, e, er⟩ => ⟨⟨x, hx, e, er⟩, e ▸ hn⟩⟩
  · rw [hm]
    refine ((h.2.2 r hr).2.sublist List.filter_sublist).imp fun hab ta hta tb htb => ?_
    exact hab ta (List.mem_filter.1 (hts ▸ hta)).1 tb (List.mem_filter.1 (hts ▸ htb)).1

/-- Settles O34: the branches of DROP TURBINE are the checks of R4 in their order. -/
theorem dropTurbineChecked : Obligations.DropTurbineChecked := by
  intro s e node hs h refused
  have hx : exec (.dropTurbine e node) s = .next ((delivered e s).doDropTurbine e node) := by
    change Host.Outcome.next (s.request e (.dropTurbine node)) = _
    rw [State.request_served hs]
    rfl
  have ht : ∀ n, (delivered e s).turbine? n = s.turbine? n := fun n => by simp [State.turbine?]
  have hmode := delivered_mode e s
  simp only [refused, hx, State.doDropTurbine, ht]
  refine ⟨fun hm => ?_, fun hm hn => ?_, fun hm h0 h1 ha => ?_, fun ⟨x, hxm, hxn⟩ hm h0 h1 => ?_⟩
  · rw [if_pos (hmode ▸ hm), State.reply_refused]
  · rw [if_neg (not_not.2 (hmode.trans hm)), if_pos hn, State.reply_refused]
  · have hnone : s.turbine? node.toNat = none := by simpa [State.turbine?] using ha
    rw [if_neg (not_not.2 (hmode.trans hm)), if_neg (not_or.2 ⟨h0, h1⟩), hnone]
    simp only [State.reply_refused]
  · have hf : s.turbine? node.toNat = some x := h.turbine?_iff.2 ⟨hxm, hxn⟩
    have hdf : (delivered e s).turbine? x.node = some x := by rw [ht, hxn, hf]
    have hrows : ((delivered e s).leaveOldRow x.node).rows = (s.leaveOldRow x.node).rows := by
      simp only [State.leaveOldRow, hdf, hxn ▸ hf, State.leaveRow, State.updRow, State.row, delivered_rows]
    rw [if_neg (not_not.2 (hmode.trans hm)), if_neg (not_or.2 ⟨h0, h1⟩), hf]
    refine ⟨(s.leaveOldRow x.node).rows, ?_, fun r => ?_, fun r => ?_⟩
    · simp only [State.reply_ok]
      rw [State.dropEntry_eq hdf, hrows, delivered_turbines, hxn]
    · rw [← hxn]; exact h.members_leaveOldRow x.node r
    · exact s.masked_leaveOldRow x.node r

end Sys2Proof.Machine

namespace Sys2Proof.Machine

/-! ### LOAD TURBINE (R2, R3) -/

/-- The fields of a LOAD TURBINE request are in range (R2, check 2). -/
def LoadInRange (q : TurbineReq) : Prop :=
  ¬(q.node = 0 ∨ q.node = 255 ∨ 15 < q.row.toNat ∨ 31 < q.column.toNat ∨
    (q.format ≠ 1 ∧ q.format ≠ 2 ∧ q.format ≠ 3) ∨ 300 < q.limit.toNat ∨ q.rate = 0 ∨ 200 < q.rate.toNat)

/-- A format code names a format exactly when it is one of the three. -/
theorem Format.ofCode_isNone (c : Byte) : Format.ofCode c = none ↔ c ≠ 1 ∧ c ≠ 2 ∧ c ≠ 3 := by
  unfold Format.ofCode
  split
  · simp [*]
  · split
    · simp [*]
    · split
      · simp [*]
      · rename_i h1 h2 h3
        exact ⟨fun _ => ⟨h1, h2, h3⟩, fun _ => rfl⟩

theorem Format.ofCode_toNat {c : Byte} {f : Format} (h : Format.ofCode c = some f) :
    c.toNat = f.code := by
  unfold Format.ofCode at h
  split at h
  · cases h; subst c; rfl
  · split at h
    · cases h; subst c; rfl
    · split at h
      · cases h; subst c; rfl
      · cases h

/-- A word is zero exactly when its value is. -/
theorem toNat_zero_iff {n : Nat} (x : BitVec n) : x.toNat = 0 ↔ x = 0 := by
  rw [BitVec.toNat_eq]; simp

/-- The request gives a configuration, that of its fields, exactly when they are in range. -/
theorem turbineConfig?_some {q : TurbineReq} {c : TurbineConfig} (h : turbineConfig? q = some c) :
    LoadInRange q ∧ ∃ f, Format.ofCode q.format = some f ∧ c = ⟨q.row.toNat, q.column.toNat, f, q.limit.toNat, q.rate.toNat⟩ := by
  unfold turbineConfig? at h
  cases hf : Format.ofCode q.format with
  | none => simp [hf] at h
  | some f =>
    have hok : ¬(q.format ≠ 1 ∧ q.format ≠ 2 ∧ q.format ≠ 3) := fun c =>
      Option.some_ne_none f (hf.symm.trans ((Format.ofCode_isNone _).2 c))
    rw [hf] at h
    simp only [toNat_zero_iff] at h
    split at h
    · cases h
    · rename_i hr
      cases h
      exact ⟨by unfold LoadInRange; tauto, f, rfl, rfl⟩

theorem turbineConfig?_none {q : TurbineReq} (h : turbineConfig? q = none) : ¬LoadInRange q := by
  unfold turbineConfig? at h
  cases hf : Format.ofCode q.format with
  | none =>
    have := (Format.ofCode_isNone _).1 hf
    unfold LoadInRange
    tauto
  | some f =>
    rw [hf] at h
    simp only [toNat_zero_iff] at h
    split at h
    · unfold LoadInRange; tauto
    · cases h

/-- The checks 3 to 5 of R2, as the rule writes them. -/
theorem State.checkLoad_eq (s : State) (node : Byte) (c : TurbineConfig) :
    s.checkLoad node c =
      if node = s.nodeAddr then .conflict
      else if 32 ≤ (s.members c.row).countP (fun n => n != node.toNat) then .full
      else if ∃ t ∈ s.turbines, t.node ≠ node.toNat ∧ t.config.row = c.row ∧ t.config.column = c.column then .conflict
      else .ok := by
  have hany : ((s.turbines.any fun t => t.node != node.toNat && t.config.row == c.row && t.config.column == c.column) =
      true) ↔ ∃ t ∈ s.turbines, t.node ≠ node.toNat ∧ t.config.row = c.row ∧ t.config.column = c.column := by
    simp [and_assoc]
  simp only [State.checkLoad, ← List.countP_eq_length_filter, hany]

/-- What the machine's checks of a LOAD TURBINE request find is the result that R2 gives. -/
theorem loadTurbineResult_of_config {s : State} {q : TurbineReq} (hm : s.mode = .pass) {c : TurbineConfig}
    (hc : turbineConfig? q = some c) : loadTurbineResult s q = s.checkLoad q.node c := by
  obtain ⟨hr, f, -, rfl⟩ := turbineConfig?_some hc
  rw [loadTurbineResult, if_neg (not_not.2 hm), if_neg hr, State.checkLoad_eq]

theorem loadTurbineResult_of_range {s : State} {q : TurbineReq} (hm : s.mode = .pass) (hc : turbineConfig? q = none) :
    loadTurbineResult s q = .range := by
  rw [loadTurbineResult, if_neg (not_not.2 hm), if_pos (not_not.1 (turbineConfig?_none hc))]

/-- LOAD TURBINE as one of two outcomes: refused with the result of R2, or accepted with the configuration that the fields give. -/
theorem State.doLoadTurbine_cases (s : State) (e : Env) (q : TurbineReq) :
    (loadTurbineResult s q ≠ .ok ∧ s.doLoadTurbine e q = s.reply e 4 (loadTurbineResult s q) []) ∨
      (loadTurbineResult s q = .ok ∧ s.mode = .pass ∧ ∃ c, turbineConfig? q = some c ∧ s.checkLoad q.node c = .ok ∧
        s.doLoadTurbine e q = (s.loadEntry q.node.toNat c).reply e 4 .ok [q.node]) := by
  unfold State.doLoadTurbine
  split
  · rename_i hm
    have hr : loadTurbineResult s q = .mode := by rw [loadTurbineResult, if_pos hm]
    exact .inl ⟨by rw [hr]; decide, by rw [hr]⟩
  · rename_i hm
    have hm := not_not.1 hm
    cases hc : turbineConfig? q with
    | none =>
      rw [loadTurbineResult_of_range hm hc]
      exact .inl ⟨by decide, rfl⟩
    | some c =>
      rw [loadTurbineResult_of_config hm hc]
      cases hk : s.checkLoad q.node c with
      | ok => exact .inr ⟨rfl, hm, c, rfl, hk, by simp only [hk]⟩
      | _ => exact .inl ⟨by decide, by simp only [hk]⟩

/-- The table after a load: the entry with its load values in the place its node gives it (R2, R5). -/
theorem State.mem_putEntry {s : State} {node : Nat} {c : TurbineConfig} {x : Turbine} :
    x ∈ (s.putEntry node c).turbines ↔ x = { node := node, config := c } ∨ (x ∈ s.turbines ∧ x.node ≠ node) := by
  simp only [State.putEntry, List.mem_append, List.mem_cons, List.mem_filter, decide_eq_true_eq]
  rw [Nat.ne_iff_lt_or_gt]
  tauto

/-- The table stays in node order under a load. -/
theorem State.putEntry_sorted {s : State} (h : (s.turbines.map fun t => t.node).Pairwise (· < ·)) (node : Nat)
    (c : TurbineConfig) : ((s.putEntry node c).turbines.map fun t => t.node).Pairwise (· < ·) := by
  rw [List.pairwise_map] at h ⊢
  simp only [State.putEntry]
  refine List.pairwise_append.2 ⟨h.sublist List.filter_sublist,
    List.pairwise_cons.2 ⟨fun x hx => by simpa using (List.mem_filter.1 hx).2, h.sublist List.filter_sublist⟩,
    fun a ha b hb => ?_⟩
  have hlt : a.node < node := by simpa using (List.mem_filter.1 ha).2
  rcases List.mem_cons.1 hb with rfl | hb
  · exact hlt
  · exact hlt.trans (by simpa using (List.mem_filter.1 hb).2)

theorem State.mem_insertMember {s : State} {node column n : Nat} {l : List Nat} :
    n ∈ s.insertMember node column l ↔ n = node ∨ n ∈ l := by
  simp only [State.insertMember, List.mem_append, List.mem_cons, List.mem_filter, Bool.not_eq_true', decide_eq_false_iff_not,
    decide_eq_true_eq]
  tauto

@[simp] theorem State.loadEntry_turbines (s : State) (node : Nat) (c : TurbineConfig) :
    (s.loadEntry node c).turbines = (s.putEntry node c).turbines := by
  simp [State.loadEntry, State.putEntry]

/-- A load changes the table and the member lists alone. -/
theorem State.loadEntry_eq (s : State) (node : Nat) (c : TurbineConfig) :
    s.loadEntry node c =
      { s with turbines := (s.putEntry node c).turbines, rows := (s.loadEntry node c).rows } := by
  unfold State.loadEntry State.leaveOldRow
  split <;> rfl

/-- The row records after a load: the new row's list has gained the node. -/
theorem State.row_loadEntry (s : State) (node : Nat) {c : TurbineConfig} (hc : c.row < 16) (r : Nat) :
    (s.loadEntry node c).row r =
      if r = c.row then
        { (s.leaveOldRow node).row c.row with members := s.insertMember node c.column ((s.leaveOldRow node).members c.row) }
      else (s.leaveOldRow node).row r := by
  have h : (s.loadEntry node c).row r = ((s.leaveOldRow node).updRow c.row fun x =>
    { x with members := (s.leaveOldRow node).insertMember node c.column x.members }).row r := rfl
  rw [h, State.row_updRow _ _ _ _ hc]
  simp only [State.insertMember, State.columnOf_leaveOldRow, State.members]

/-- A load leaves every mask flag as it is (R3). -/
theorem State.masked_loadEntry (s : State) (node : Nat) {c : TurbineConfig} (hc : c.row < 16) (r : Nat) :
    (s.loadEntry node c).masked r = s.masked r := by
  rw [← State.masked_leaveOldRow s node r, State.masked, State.masked, State.row_loadEntry s node hc]
  split
  · rename_i e; rw [e]
  · rfl

/-- The member lists after a load: the node has left its old row and stands in the new one at the place its column gives (R3). -/
theorem members_loadEntry {s : State} (h : RowTableOk s) (node : Nat) {c : TurbineConfig} (hc : c.row < 16) (r : Nat) :
    (s.loadEntry node c).members r =
      if r = c.row then s.insertMember node c.column ((s.members r).filter fun n => n != node)
      else (s.members r).filter fun n => n != node := by
  rw [← h.members_leaveOldRow node r, State.members, State.row_loadEntry s node hc]
  split
  · rename_i e; rw [e]
  · rfl

/-- What LOAD TURBINE needs of a node and a configuration to keep the table in order (R1, R2). -/
structure Loadable (s : State) (node : Nat) (c : TurbineConfig) : Prop where
  node_range : 1 ≤ node ∧ node ≤ 254
  foreign : node ≠ s.nodeAddr.toNat
  config : c.row ≤ 15 ∧ c.column ≤ 31 ∧ c.limit ≤ 300 ∧ 1 ≤ c.rate ∧ c.rate ≤ 200
  place_free : ∀ t ∈ s.turbines, t.node ≠ node → t.config.row = c.row → t.config.column ≠ c.column

/-- An accepted request is loadable. -/
theorem loadable_of_accepted {s : State} {q : TurbineReq} {c : TurbineConfig} (hc : turbineConfig? q = some c)
    (hk : s.checkLoad q.node c = .ok) : Loadable s q.node.toNat c := by
  obtain ⟨hr, f, -, rfl⟩ := turbineConfig?_some hc
  rw [State.checkLoad_eq] at hk
  split at hk
  · cases hk
  · rename_i hn
    split at hk
    · cases hk
    · split at hk
      · cases hk
      · rename_i hfree
        unfold LoadInRange at hr
        rw [← toNat_zero_iff q.node, ← toNat_zero_iff q.rate] at hr
        have h255 : q.node.toNat ≠ 255 := fun e => hr (.inr (.inl (BitVec.eq_of_toNat_eq e)))
        have hlt := q.node.isLt
        refine ⟨by omega, fun e => hn (BitVec.eq_of_toNat_eq e), by dsimp only; omega, fun t ht h1 h2 h3 => ?_⟩
        exact hfree ⟨t, ht, h1, h2, h3⟩

/-- A load of a loadable entry keeps the table in node order and the member lists true to it. -/
theorem rowTableOk_loadEntry {s : State} {node : Nat} {c : TurbineConfig} (h : RowTableOk s) (hl : Loadable s node c) :
    RowTableOk (s.loadEntry node c) := by
  have hrow : c.row < 16 := Nat.lt_succ_of_le hl.config.1
  have hmem : ∀ x, x ∈ (s.loadEntry node c).turbines ↔ x = { node := node, config := c } ∨ (x ∈ s.turbines ∧ x.node ≠ node) :=
    fun x => by rw [State.loadEntry_turbines, State.mem_putEntry]
  have haddr : (s.loadEntry node c).nodeAddr = s.nodeAddr := by rw [State.loadEntry_eq]
  refine ⟨by rw [State.loadEntry_turbines]; exact State.putEntry_sorted h.1 node c, fun x hx => ?_, fun r hr => ⟨fun n => ?_, ?_⟩⟩
  · rw [haddr]
    rcases (hmem x).1 hx with rfl | ⟨hx, -⟩
    · exact ⟨hl.node_range, hl.foreign, hl.config⟩
    · exact h.2.1 x hx
  · have hothers : n ∈ (s.members r).filter (fun n => n != node) ↔
        ∃ t ∈ s.turbines, t.node ≠ node ∧ t.node = n ∧ t.config.row = r := by
      rw [List.mem_filter, h.mem_members hr, bne_iff_ne]
      exact ⟨fun ⟨⟨t, ht, e, er⟩, hn⟩ => ⟨t, ht, e ▸ hn, e, er⟩, fun ⟨t, ht, hn, e, er⟩ => ⟨⟨t, ht, e, er⟩, e ▸ hn⟩⟩
    rw [members_loadEntry h node hrow r]
    split
    · rename_i e
      subst e
      rw [State.mem_insertMember, hothers]
      constructor
      · rintro (rfl | ⟨t, ht, hn, e, er⟩)
        · exact ⟨_, (hmem _).2 (.inl rfl), rfl, rfl⟩
        · exact ⟨t, (hmem t).2 (.inr ⟨ht, hn⟩), e, er⟩
      · rintro ⟨t, ht, e, er⟩
        rcases (hmem t).1 ht with rfl | ⟨ht, hn⟩
        · exact .inl e.symm
        · exact .inr ⟨t, ht, hn, e, er⟩
    · rename_i hne
      rw [hothers]
      constructor
      · rintro ⟨t, ht, hn, e, er⟩
        exact ⟨t, (hmem t).2 (.inr ⟨ht, hn⟩), e, er⟩
      · rintro ⟨t, ht, e, er⟩
        rcases (hmem t).1 ht with rfl | ⟨ht, hn⟩
        · exact absurd er.symm hne
        · exact ⟨t, ht, hn, e, er⟩
  · -- the columns: the new node stands between the members of smaller and those of larger column
    have hcol : ∀ x ∈ (s.loadEntry node c).turbines, ∀ n, x.node = n →
        x.config.column = if n = node then c.column else s.columnOf n := by
      rintro x hx n rfl
      rcases (hmem x).1 hx with rfl | ⟨hx, hn⟩
      · simp
      · rw [if_neg hn, h.columnOf_of_mem hx]
    suffices hp : ((s.loadEntry node c).members r).Pairwise fun a b =>
        (if a = node then c.column else s.columnOf a) < if b = node then c.column else s.columnOf b from
      hp.imp fun hab ta hta tb htb ea eb => by rw [hcol ta hta _ ea, hcol tb htb _ eb]; exact hab
    have hothers : ((s.members r).filter fun n => n != node).Pairwise fun a b =>
        (if a = node then c.column else s.columnOf a) < if b = node then c.column else s.columnOf b := by
      refine ((h.members_columns hr).sublist List.filter_sublist).imp_of_mem fun ha hb hab => ?_
      rwa [if_neg (by simpa using (List.mem_filter.1 ha).2), if_neg (by simpa using (List.mem_filter.1 hb).2)]
    rw [members_loadEntry h node hrow r]
    split
    · rename_i e
      subst e
      have hne : ∀ a ∈ (s.members c.row).filter (fun n => n != node), a ≠ node ∧ s.columnOf a ≠ c.column := by
        intro a ha
        obtain ⟨ha, hn⟩ := List.mem_filter.1 ha
        obtain ⟨t, ht, rfl, er⟩ := (h.mem_members hr).1 ha
        have hn : t.node ≠ node := by simpa using hn
        exact ⟨hn, by rw [h.columnOf_of_mem ht]; exact hl.place_free t ht hn er⟩
      refine List.pairwise_append.2 ⟨hothers.sublist List.filter_sublist, List.pairwise_cons.2 ⟨fun b hb => ?_,
        hothers.sublist List.filter_sublist⟩, fun a ha b hb => ?_⟩
      · obtain ⟨hb, hge⟩ := List.mem_filter.1 hb
        obtain ⟨hn, hc⟩ := hne b hb
        simp only [Bool.not_eq_true', decide_eq_false_iff_not] at hge
        rw [if_pos rfl, if_neg hn]
        omega
      · obtain ⟨ha, hlt⟩ := List.mem_filter.1 ha
        obtain ⟨hna, -⟩ := hne a ha
        rw [decide_eq_true_eq] at hlt
        rw [if_neg hna]
        rcases List.mem_cons.1 hb with rfl | hb
        · rwa [if_pos rfl]
        · obtain ⟨hb, hge⟩ := List.mem_filter.1 hb
          obtain ⟨hnb, hcb⟩ := hne b hb
          simp only [Bool.not_eq_true', decide_eq_false_iff_not] at hge
          rw [if_neg hnb]
          omega
    · exact hothers

/-- The checks of R2 read nothing that a delivery changes. -/
theorem loadTurbineResult_delivered (e : Env) (s : State) (q : TurbineReq) :
    loadTurbineResult (delivered e s) q = loadTurbineResult s q := by
  rw [delivered_eq]
  rfl

/-- Settles O33: refused by the first check of R2 that fails, or loaded in its place. -/
theorem loadTurbineChecked : Obligations.LoadTurbineChecked := by
  intro s e q hs h
  have hx : exec (.loadTurbine e q) s = .next ((delivered e s).doLoadTurbine e q) := by
    change Host.Outcome.next (s.request e (.loadTurbine q)) = _
    rw [State.request_served hs]
    rfl
  rw [hx, ← loadTurbineResult_delivered e s q]
  rcases (delivered e s).doLoadTurbine_cases e q with ⟨hr, he⟩ | ⟨hr, -, c, hc, hk, he⟩
  · exact ⟨fun _ => by rw [he, State.reply_refused], fun hok => absurd hok hr⟩
  · refine ⟨fun hne => absurd hr hne, fun _ => ?_⟩
    have hl := loadable_of_accepted hc hk
    have hrow : c.row < 16 := Nat.lt_succ_of_le hl.config.1
    have hdt : RowTableOk (delivered e s) := by
      simpa [RowTableOk, State.members, State.row] using h
    have hok := rowTableOk_loadEntry hdt hl
    rw [State.loadEntry_eq] at hok
    obtain ⟨-, f, hf, rfl⟩ := turbineConfig?_some hc
    refine ⟨_, _, f, by rw [he, State.loadEntry_eq, State.reply_ok], by rw [Format.ofCode_toNat hf]; cases f <;> rfl, fun x => ?_, ?_, fun r => ?_⟩
    · rw [State.mem_putEntry, delivered_turbines]
    · simpa [RowTableOk, State.members, State.row] using hok
    · have := State.masked_loadEntry (delivered e s) q.node.toNat hrow r
      simpa [State.masked, State.row] using this

end Sys2Proof.Machine

/-!
What a command can do, said once. `Evolves R` lists the parts that the meanings of the commands are put together from, beyond the plain
updates of `Propagates`; a command other than POWER_ON then takes a state to one that `R` relates to it, unless it carries a request that
loads, drops or sets something (`Request.configures`).
-/

namespace Sys2Proof.Machine

/-- What the bookkeeping of turbines, rows, waves and slots is kept in. A change of any other field of the state keeps the ledger. -/
structure Ledger where
  turbines : List Turbine
  rows : Vector Row 16
  nodeAddr : Byte
  params : Params
  sources : List Source
  plans : Vector (Option Plan) 24
  waves : List Wave
  waveCounter : Nat
  neutral : Neutral
  high : List Nat
  low : List Nat
  retargets : List Nat
  lowSlots : Nat
  highSlots : Nat
  mode : Mode

def State.ledger (s : State) : Ledger :=
  ⟨s.turbines, s.rows, s.nodeAddr, s.params, s.sources, s.plans, s.waves, s.waveCounter, s.neutral, s.high, s.low, s.retargets,
    s.lowSlots, s.highSlots, s.mode⟩

/-- The fields of a step that the release arbiter's bookkeeping reads. -/
def WaveStep.books (st : WaveStep) : Nat × StepState × Nat × Nat × Nat × Nat × Nat × Nat :=
  (st.row, st.state, st.needed, st.settled, st.stalled, st.faulted, st.superseded, st.cancelled)

/-- The fields of a wave that the release arbiter's bookkeeping reads. -/
def Wave.books (w : Wave) : Nat × Bool × List (Nat × StepState × Nat × Nat × Nat × Nat × Nat × Nat) :=
  (w.num, w.running, w.steps.map WaveStep.books)

/-- The fields of a live record that the release arbiter's bookkeeping reads. -/
def Live.books (l : Live) : MoveState × Option SlotClass × Option Owner × Option Int := (l.move, l.slot, l.owner, l.target)

/-- A request that loads, drops or sets a part of the configuration. -/
def Request.configures : Request → Bool
  | .setParam .. | .loadTurbine .. | .dropTurbine .. | .loadSources .. | .loadPlan .. | .dropPlan .. => true
  | _ => false

/-- The parts that the meanings of the commands are put together from. -/
structure Evolves (R : State → State → Prop) : Prop where
  refl : ∀ s, R s s
  trans : ∀ {s t u}, R s t → R t u → R s u
  inert : ∀ {s t : State}, t.ledger = s.ledger → R s t
  sources : ∀ (s : State) g, (∀ x : Source, (g x).kind = x.kind ∧ (g x).node = x.node) →
    R s { s with sources := s.sources.map g }
  live : ∀ (s : State) (g : Turbine → Live), (∀ t, (g t).books = t.live.books) →
    R s { s with turbines := s.turbines.map fun t => { t with live := g t } }
  tap : ∀ (s : State) {t : Turbine} f r k, s.turbine? t.node = some t → R s (s.updLive t.node fun _ => t.live.report f r k)
  waves : ∀ (s : State) (g : Wave → Wave), (∀ w, (g w).books = w.books) → R s { s with waves := s.waves.map g }
  masks : ∀ (s : State) r b, R s (s.setMask r b)
  settleAfter : ∀ (s : State) released, R s (s.settleAfter released)
  stall : ∀ (s : State) {t : Turbine}, s.turbine? t.node = some t → t.live.move = .moving → R s (s.stall t)
  report : ∀ (s : State) {t : Turbine}, s.turbine? t.node = some t → R s (s.arbiterReport t)
  arbiterStep : ∀ {s t : State}, s.arbiterStep = some t → R s t
  release : ∀ (s : State) {n r}, s.canRelease n r = true → R s (s.releaseStep n r).completeWaves
  complete : ∀ (s : State) {n w}, s.wave? n = some w → w.finished = true → R s (s.completeWave w)
  ends : ∀ (s : State), s.drainOver = true ∨ s.returnOver = true → R s s.endToPass
  close : ∀ s : State, R s s.closeForming
  intake : ∀ (s : State) set last items, s.mode = .steer → R s (s.intake set last items)
  foldIn : ∀ (s : State) set items, R s (s.foldItems set items)
  enterReturn : ∀ (s : State) c n, s.mode = .steer ∨ s.mode = .drain → R s (s.enterReturn c n)
  enterDrain : ∀ s : State, s.mode = .steer → R s s.enterDrain
  veer : ∀ (s : State) old new, R s (s.veer old new)
  clear : ∀ {s t : State}, (∃ c, t.ledger = (s.clearSteering.setMode .pass c).ledger) → R s t
  steer : ∀ {s t : State}, s.mode = .pass → (∃ c, t.ledger = (s.setMode .steer c).ledger) → R s t
  skipAt : ∀ (s : State) r x, R s (s.skipAt r x)
  neutral : ∀ (s : State) c rs, s.mode = .steer → (∀ r ∈ rs, r < 16) →
    R s ((s.setNeutralCause c).neutralRows rs).judgeNeutral

/-- A live record changed by a function of its entry. -/
theorem State.updLive_eq (s : State) (n : Nat) (g : Live → Live) :
    s.updLive n g =
      { s with turbines := s.turbines.map fun t => { t with live := if t.node = n then g t.live else t.live } } := by
  simp only [State.updLive]
  congr 1
  refine List.map_congr_left fun t _ => ?_
  split <;> rfl

theorem mem_rowsOf {rows : BitVec 16} {r : Nat} (hr : r ∈ rowsOf rows) : r < 16 := by
  simp only [rowsOf, List.mem_filter, List.mem_range] at hr
  exact hr.1

/-- What hears a frame keeps the ledger. -/
theorem State.heard_ledger (s : State) (p : Port) (b : Bool) : (s.heard p b).ledger = s.ledger := by
  unfold State.heard State.restartLapse
  split
  · split
    · split <;> rfl
    · rfl
  · rfl

/-- What a command makes of a state: related by `R`, or what a configuring request makes of it. -/
def Evolved (R : State → State → Prop) (s t : State) : Prop :=
  R s t ∨ ∃ (s1 : State) (e : Env) (q : Request), s1.ledger = s.ledger ∧ q.configures = true ∧ t = s1.execute e q

namespace Evolves

variable {R : State → State → Prop} (h : Evolves R)
include h

theorem fold {α : Type} (f : State → α → State) (hf : ∀ s a, R s (f s a)) (l : List α) (s : State) : R s (l.foldl f s) := by
  induction l generalizing s with
  | nil => exact h.refl s
  | cons a l ih => exact h.trans (hf s a) (ih (f s a))

/-- A step after a change that keeps the ledger. -/
theorem inertThen {s t u : State} (a : R t u) (b : t.ledger = s.ledger) : R s u := h.trans (h.inert b) a

/-- A change that keeps the ledger, after a step. -/
theorem andInert {s t u : State} (a : R s t) (b : u.ledger = t.ledger) : R s u := h.trans a (h.inert b)

theorem updLive (s : State) (n : Nat) (g : Live → Live) (hg : ∀ l, (g l).books = l.books) : R s (s.updLive n g) := by
  rw [State.updLive_eq]
  refine h.live s _ fun t => ?_
  split
  · exact hg _
  · rfl

theorem updStep (s : State) (n r : Nat) (g : WaveStep → WaveStep) (hg : ∀ x, (g x).books = x.books) :
    R s (s.updStep n r g) := by
  refine h.waves s _ fun w => ?_
  split
  · simp only [Wave.books, Wave.updStep, List.map_map]
    congr 2
    refine List.map_congr_left fun st _ => ?_
    simp only [Function.comp]
    split
    · exact hg st
    · rfl
  · rfl

theorem settle (s : State) : R s s.settle := h.settleAfter s []

theorem arbiterLoop (fuel : Nat) (s : State) : R s (State.arbiterLoop fuel s) := by
  induction fuel generalizing s with
  | zero => exact h.refl s
  | succ fuel ih =>
    unfold State.arbiterLoop
    split
    · rename_i t e; exact h.trans (h.arbiterStep e) (ih t)
    · exact h.refl s

theorem serveArbiter (s : State) : R s s.serveArbiter := h.arbiterLoop _ s

/-! ### The count and what falls due at it -/

theorem takeDeadline (s : State) (n : Nat) : R s (s.takeDeadline n) := by
  unfold State.takeDeadline
  split
  · rename_i t ht
    split
    · rename_i hd
      obtain ⟨-, rfl⟩ := State.turbine?_mem ht
      have hm : t.live.move = .moving := by
        simp only [Live.deadlineReached, Bool.and_eq_true, beq_iff_eq] at hd
        exact hd.1
      exact h.trans (h.stall s ht hm) (h.settle _)
    · exact h.refl s
  · exact h.refl s

theorem takeTest (s : State) (k : Nat × Nat) : R s (s.takeTest k) :=
  h.trans (h.updStep s k.1 k.2 (fun x => { x with owesTest := false, owesDeadline := false }) fun _ => rfl) (h.settle _)

theorem takeOwedTest (s : State) (k : Nat × Nat) : R s (s.takeOwedTest k) := by
  unfold State.takeOwedTest
  split
  · exact h.takeTest s k
  · exact h.refl s

theorem takeQuiet (s : State) : R s s.takeQuiet := by
  unfold State.takeQuiet
  split
  · exact h.inertThen (h.close { s with quietDue := false }) rfl
  · exact h.refl s

theorem lapseExpire (s : State) : R s s.lapseExpire := by
  have key : ∀ s1 : State, s1.ledger = s.ledger →
      R s (match s1.mode with | .steer | .drain => (s1.enterReturn .lapse .lapse).settle | .pass | .returning => s1) := by
    intro s1 h1
    split
    · rename_i hm; exact h.inertThen (h.trans (h.enterReturn s1 _ _ (.inl hm)) (h.settle _)) h1
    · rename_i hm; exact h.inertThen (h.trans (h.enterReturn s1 _ _ (.inr hm)) (h.settle _)) h1
    · exact h.inert h1
    · exact h.inert h1
  unfold State.lapseExpire
  refine key _ ?_
  split <;> rfl

theorem takeLapse (s : State) : R s s.takeLapse := by
  unfold State.takeLapse
  split
  · exact h.lapseExpire s
  · exact h.refl s

theorem judgeSector (s : State) : R s s.judgeSector := by
  unfold State.judgeSector
  split
  · exact h.inert rfl
  · split
    · exact h.refl s
    · rename_i sec _ _
      dsimp only
      split
      · exact h.inertThen (h.veer { s with sector := some (s.df / 150) } _ _) rfl
      · exact h.inert rfl

theorem evaluateLatches (s : State) : R s s.evaluateLatches := by
  refine h.waves s _ fun w => ?_
  unfold Wave.evaluateLatches
  split <;> rfl

theorem estimate (s : State) : R s s.estimate := by
  have h1 : R s s.judgeSources := h.sources s _ fun _ => ⟨rfl, rfl⟩
  unfold State.estimate
  dsimp only
  split
  · exact h.andInert h1 rfl
  · refine h.trans h1 ?_
    split
    · exact h.inertThen (h.evaluateLatches _) rfl
    · exact h.inertThen (h.trans (h.judgeSector _) (h.evaluateLatches _)) rfl

theorem takeEstimate (s : State) : R s s.takeEstimate := by
  unfold State.takeEstimate
  split
  · exact h.inertThen (h.trans (h.estimate { s with estimateDue := false }) (h.settle _)) rfl
  · exact h.refl s

theorem closeCount (s : State) : R s s.closeCount :=
  h.trans (h.fold _ h.takeDeadline _ s) <| h.trans (h.fold _ h.takeOwedTest _ _) <| h.trans (h.takeQuiet _) <|
    h.trans (h.takeLapse _) (h.takeEstimate _)

theorem tick (s : State) : R s s.tick := by
  have h1 := h.live s (fun t => { t.live with age := sat16 (t.live.age + 1) }) fun _ => rfl
  have h2 := h.sources { s with turbines := s.turbines.map fun t => { t with live := { t.live with age := sat16 (t.live.age + 1) } } }
    (fun x => { x with age := sat16 (x.age + 1) }) fun _ => ⟨rfl, rfl⟩
  refine h.andInert (h.trans (h.trans h1 h2) (h.waves _ (fun w => { w with steps := w.steps.map WaveStep.tick }) fun w => ?_)) rfl
  simp only [Wave.books, List.map_map]
  congr 2
  refine List.map_congr_left fun st _ => ?_
  simp only [Function.comp, WaveStep.tick]
  split <;> rfl

/-! ### Lines, links and the divider -/

theorem stormEvent (s : State) : R s s.stormEvent := by
  unfold State.stormEvent
  split
  · rename_i hm; exact h.trans (h.enterReturn s _ _ (.inl hm)) (h.settle _)
  · rename_i hm; exact h.trans (h.enterReturn s _ _ (.inr hm)) (h.settle _)
  · exact h.refl s
  · exact h.refl s

theorem stormEdge (s : State) (level : Bool) : R s (s.stormEdge level) := by
  unfold State.stormEdge
  dsimp only
  split
  · exact h.inertThen (h.stormEvent { s with stormLine := level, storm := false }) rfl
  · split
    · exact h.inertThen (h.stormEvent _) rfl
    · exact h.inert rfl

theorem loseD (s : State) : R s s.loseD := by
  unfold State.loseD
  dsimp only
  split
  · rename_i hm
    exact h.clear ⟨s.cause, by simp only [State.ledger, State.setMode, hm.symm]; rfl⟩
  all_goals exact h.clear ⟨.link, rfl⟩

theorem deliver (s : State) (q : Requester) (quotient : Nat) : R s (s.deliver q quotient) := by
  cases q with
  | hold w r =>
    simp only [State.deliver, State.deliverHold]
    split
    · split
      · exact h.trans (h.updStep s w r (fun x => x.formCompares _ _ _ _) fun _ => rfl) (h.settle _)
      · exact h.refl s
    · exact h.refl s
  | deadline n =>
    simp only [State.deliver, State.deliverDeadline]
    split
    · split
      · exact h.updLive s n _ fun _ => rfl
      · exact h.refl s
    · exact h.refl s

theorem arrival (s : State) : R s s.arrival := by
  unfold State.arrival
  split
  · exact h.refl s
  · rename_i v _
    have h1 : R s { s with divider := ({ s.divider with stage := none } : Divider).serve } := h.inert rfl
    dsimp only
    split
    · exact h1
    · exact h.trans h1 (h.deliver _ _ _)

/-! ### Frames -/

theorem forward (s : State) (p : Port) (f : EthFrame) : R s (s.forward p f) := by
  refine h.inert ?_
  unfold State.forward
  cases p <;> dsimp only <;> split <;> rfl

theorem restartLapse (s : State) : R s s.restartLapse := by
  refine h.inert ?_
  unfold State.restartLapse
  split <;> rfl

theorem setpointOnU (s : State) (f : EthFrame) (a : Addr) (items : List Item) : R s (s.setpointOnU f a items) := by
  unfold State.setpointOnU
  dsimp only
  split
  · exact h.forward s _ _
  · have h1 : R s (if s.mode = .steer then s.intake a.set.toNat (a.flags.getLsbD 0) (items.filter s.takes) else s) := by
      split
      · rename_i hm; exact h.intake s _ _ _ hm
      · exact h.refl s
    split
    · exact h1
    · exact h.trans h1 (h.forward _ _ _)

theorem observe (s : State) (k : SourceKind) (n v d : Nat) : R s (s.observe k n v d) := by
  refine h.sources s _ fun x => ?_
  split <;> exact ⟨rfl, rfl⟩

theorem tapRecord (s : State) (n : Nat) (r : ReportBody) : R s (s.tapRecord n r) := by
  unfold State.tapRecord
  split
  · exact h.refl s
  · rename_i t ht
    obtain ⟨-, rfl⟩ := State.turbine?_mem ht
    refine h.trans (h.tap s _ _ _ ht) (h.trans (h.report _ (t := { t with live := _ }) ?_) (h.settle _))
    rw [State.turbine?_updLive, ht]
    simp

theorem tapReport (s : State) (a : Addr) (r : ReportBody) : R s (s.tapReport a r) := by
  unfold State.tapReport
  dsimp only
  split
  · exact h.trans (h.observe s _ _ _ _) (h.tapRecord _ _ _)
  · exact h.tapRecord _ _ _

theorem reportOnD (s : State) (f : EthFrame) (a : Addr) (r : ReportBody) : R s (s.reportOnD f a r) := by
  have h1 : R s { s with draws := s.draws + 1 } := h.inert rfl
  unfold State.reportOnD
  dsimp only
  split
  · exact h.trans h1 (h.trans (h.forward _ _ _) (h.tapReport _ _ _))
  · exact h.trans h1 (h.trans (h.tapReport _ _ _) (h.forward _ _ _))

theorem metOnD (s : State) (f : EthFrame) (a : Addr) (m : MetBody) : R s (s.metOnD f a m) := by
  unfold State.metOnD
  split
  · exact h.trans (h.observe s _ _ _ _) (h.forward _ _ _)
  · exact h.forward s _ _

/-! ### Requests -/

theorem doModeSteer (s : State) (e : Env) : R s (s.doModeSteer e) := by
  unfold State.doModeSteer
  split
  · exact h.inert rfl
  · rename_i hm
    split
    · exact h.steer (not_not.1 hm) ⟨.request, rfl⟩
    · exact h.inert rfl

theorem doMode (s : State) (e : Env) (code : Byte) : R s (s.doMode e code) := by
  unfold State.doMode
  split
  · exact h.doModeSteer s e
  · split
    · unfold State.doStopKeep
      split
      · rename_i hm
        exact h.trans (h.inert (t := s.reply e 15 .ok [byte Mode.drain.code]) rfl)
          (h.trans (h.enterDrain _ hm) (h.settle _))
      · exact h.inert rfl
    · split
      · unfold State.doStopNeutral
        split
        · rename_i hm
          exact h.trans (h.inert (t := s.reply e 15 .ok [byte Mode.returning.code]) rfl)
            (h.trans (h.enterReturn _ _ _ hm) (h.settle _))
        · exact h.inert rfl
      · exact h.inert rfl

theorem doNeutral (s : State) (e : Env) (rows : BitVec 16) : R s (s.doNeutral e rows) := by
  unfold State.doNeutral
  split
  · exact h.inert rfl
  · rename_i hm
    dsimp only
    split
    · exact h.inert rfl
    · exact h.trans (h.inert (t := s.reply e 16 .ok (bytes16 rows)) rfl)
        (h.trans (h.neutral _ _ _ (not_not.1 hm) fun r hr => mem_rowsOf hr) (h.settle _))

theorem maskRow (s : State) (r : Nat) : R s (s.maskRow r) := by
  unfold State.maskRow
  split
  · exact h.refl s
  · exact h.trans (h.masks s r true) (h.skipAt _ _ _)

theorem doMask (s : State) (e : Env) (rows : BitVec 16) (operation : Byte) : R s (s.doMask e rows operation) := by
  unfold State.doMask
  split
  · exact h.trans (h.inert (t := s.reply e 17 .ok (bytes16 (s.maskBits ||| rows))) rfl)
      (h.trans (h.fold _ h.maskRow _ _) (h.settle _))
  · split
    · exact h.andInert (h.fold _ (fun s r => h.masks s r false) _ s) rfl
    · exact h.inert rfl

theorem clearMasks (s : State) : R s s.clearMasks := h.fold _ (fun s r => h.masks s r false) _ s

theorem doRestart (s : State) (e : Env) : R s (s.doRestart e) := by
  have h1 : R s ((s.reply e 18 .ok []).clearSteering.setMode .pass .restart) := h.clear ⟨.restart, rfl⟩
  have h2 := h.trans h1 (h.sources _ (fun x => { x with fresh := false }) fun _ => ⟨rfl, rfl⟩)
  have h3 := h.trans (h.trans h2 (h.clearMasks _))
    (h.live _ (fun t => { t.live with stalled := false, fault := false }) fun _ => rfl)
  refine h.andInert h3 ?_
  rw [State.doRestart, State.restartBlocks, State.clearMasks_eq, State.clearMasks_eq]
  rfl

/-- A request that configures nothing is answered by parts of `Evolves`. -/
theorem execute (s : State) (e : Env) (q : Request) (hq : q.configures = false) : R s (s.execute e q) := by
  cases q with
  | setParam | loadTurbine | dropTurbine | loadSources | loadPlan | dropPlan => cases hq
  | mode c => exact h.doMode s e c
  | neutral rows => exact h.doNeutral s e rows
  | mask rows op => exact h.doMask s e rows op
  | restart => exact h.doRestart s e
  | status => exact h.inert rfl
  | readNeutral => exact h.inert rfl
  | readCounts => exact h.inert rfl
  | getParam n => simp only [State.execute, State.doGetParam]; split <;> exact h.inert rfl
  | readTurbine a n =>
    simp only [State.execute, State.doReadTurbine]
    split
    · exact h.inert rfl
    · split <;> exact h.inert rfl
  | readRow r => simp only [State.execute, State.doReadRow]; split <;> exact h.inert rfl
  | readWave p i =>
    simp only [State.execute, State.doReadWave]
    split
    · exact h.inert rfl
    · split <;> exact h.inert rfl
  | readPlan sec =>
    simp only [State.execute, State.doReadPlan]
    split
    · exact h.inert rfl
    · split <;> exact h.inert rfl

theorem answer (s : State) (e : Env) (code : Byte) (rd : Reading) : Evolved R s (s.answer e code rd) := by
  unfold State.answer
  dsimp only
  split
  · exact .inl (h.inert rfl)
  · exact .inl (h.inert rfl)
  · rename_i q
    cases hq : q.configures with
    | true => exact .inr ⟨{ s with supervisor := e.ethSrc }, e, q, rfl, hq, rfl⟩
    | false => exact .inl (h.inertThen (h.execute { s with supervisor := e.ethSrc } e q hq) rfl)

/-- What follows a change that keeps the ledger. -/
theorem afterInert {s s1 t : State} (h1 : s1.ledger = s.ledger) (h2 : Evolved R s1 t) : Evolved R s t := by
  rcases h2 with h2 | ⟨s2, e, q, hl, hq, ht⟩
  · exact .inl (h.trans (h.inert h1) h2)
  · exact .inr ⟨s2, e, q, hl.trans h1, hq, ht⟩

theorem arrive (s : State) (p : Port) (f : EthFrame) (m : Message) : Evolved R s (s.arrive p f m) := by
  unfold State.arrive
  split
  · exact .inl (h.forward s _ _)
  · exact .inl (h.forward s _ _)
  · refine .inl (h.trans (h.inert ?_) (h.forward _ _ _))
    cases p <;> rfl
  · exact .inl (h.setpointOnU s _ _ _)
  · exact .inl (h.forward s _ _)
  · exact .inl (h.reportOnD s _ _ _)
  · exact .inl (h.forward s _ _)
  · exact .inl (h.metOnD s _ _ _)
  · exact .inl (h.forward s _ _)
  · split
    · exact h.answer s _ _ _
    · exact .inl (h.forward s _ _)
  · split
    · exact .inl (h.inert rfl)
    · exact .inl (h.forward s _ _)

theorem receive (s : State) (p : Port) (f : EthFrame) : Evolved R s (s.receive p f) := by
  unfold State.receive
  split
  · split
    · exact h.afterInert (State.heard_ledger s _ _) (h.arrive _ _ _ _)
    · exact .inl (h.refl s)
  · exact .inl (h.refl s)

theorem receiveAs (s : State) (p : Port) (kind : Nat) (a : Addr) (body : List Byte) (m : Message) :
    Evolved R s (s.receiveAs p kind a body m) := by
  unfold State.receiveAs
  split
  · exact h.afterInert (State.heard_ledger s _ _) (h.arrive _ _ _ _)
  · exact .inl (h.refl s)

theorem manage (s : State) (e : Env) (code : Byte) (fields : List Byte) (rd : Reading) :
    Evolved R s (s.manage e code fields rd) := by
  unfold State.manage
  split
  · dsimp only
    rw [← heardFrom_eq]
    have h1 : (heardFrom e.src s).ledger = s.ledger := by rw [heardFrom_lapse]; rfl
    split
    · exact h.afterInert h1 (h.answer _ _ _ _)
    · exact .inl (h.inertThen (h.forward _ _ _) h1)
  · exact .inl (h.refl s)

theorem whenRunning {s t : State} (ht : R s t) : Evolved R s (s.whenRunning t) := by
  unfold State.whenRunning
  split
  · exact .inl (h.refl s)
  · exact .inl ht

/-- A command other than POWER_ON evolves the state, by the parts of `Evolves` or by a configuring request. -/
theorem exec {c : Instr} {s t : State} (hc : ∀ a b d e f, c ≠ .powerOn a b d e f) (ht : exec c s = .next t) : Evolved R s t := by
  cases c with
  | powerOn a b d e f => exact absurd rfl (hc a b d e f)
  | rstnHold => cases ht; exact h.whenRunning (h.inert rfl)
  | count => cases ht; exact h.whenRunning (h.trans (h.closeCount s) (h.tick _))
  | estimateStep => cases ht; exact h.whenRunning (h.takeEstimate s)
  | quietTimerExpiry => cases ht; exact h.whenRunning (h.takeQuiet s)
  | lapseExpiry => cases ht; exact h.whenRunning (h.takeLapse s)
  | deadlineExpiry n => cases ht; exact h.whenRunning (h.takeDeadline s n)
  | aReached w r =>
    cases ht
    refine h.whenRunning ?_
    split
    · exact h.takeTest s _
    · exact h.refl s
  | pReached w r =>
    cases ht
    refine h.whenRunning ?_
    split
    · exact h.takeTest s _
    · exact h.refl s
  | frameReceived p f => cases ht; exact h.receive s p f
  | setpointFrame a items => cases ht; exact h.receiveAs s _ _ _ _ _
  | reportFrame a r => cases ht; exact h.receiveAs s _ _ _ _ _
  | metFrame a m => cases ht; exact h.receiveAs s _ _ _ _ _
  | status | setParam | getParam | loadTurbine | dropTurbine | loadSources | loadPlan | dropPlan | readTurbine | readRow
  | readWave | readNeutral | readPlan | readCounts | modeSteer | stopKeep | stopNeutral | neutral | maskSet | maskClear
  | restart | unknownRequest => cases ht; exact h.manage s _ _ _ _
  | stormLineChange level =>
    cases ht
    refine h.whenRunning ?_
    split
    · exact h.refl s
    · exact h.stormEdge s _
  | yawHoldChange level =>
    cases ht
    refine h.whenRunning ?_
    split
    · exact h.refl s
    · split
      · exact h.inert rfl
      · exact h.inertThen (h.serveArbiter { s with yholdLine := level }) rfl
  | linkLoss p =>
    cases ht
    refine h.whenRunning ?_
    cases p <;> dsimp only <;> split
    · exact h.inert rfl
    · exact h.refl s
    · exact h.loseD s
    · exact h.refl s
  | linkReturn p =>
    cases ht
    refine h.whenRunning ?_
    cases p <;> dsimp only <;> split
    · exact h.refl s
    · exact h.inert rfl
    · exact h.refl s
    · exact h.inert rfl
  | dividerArrival => cases ht; exact h.whenRunning (h.arrival s)
  | dividerServiceStart => cases ht; exact h.whenRunning (h.inert rfl)
  | transmitCompletion p =>
    cases ht
    refine h.whenRunning ?_
    cases p <;> dsimp only <;> split
    · exact h.inert rfl
    · exact h.refl s
    · rename_i f rest _ _
      split
      · exact h.inertThen (h.serveArbiter { s with queueD := rest }) rfl
      · exact h.inert rfl
    · exact h.refl s
  | stepRelease w r =>
    cases ht
    refine h.whenRunning ?_
    split
    · rename_i hr; exact h.trans (h.release s hr) (h.settleAfter _ _)
    · exact h.refl s
  | grant =>
    cases ht
    refine h.whenRunning ?_
    split
    · rename_i n c hr hg
      exact h.trans (h.arbiterStep (by simp [State.arbiterStep, hr, hg])) (h.serveArbiter _)
    · exact h.refl s
  | retargetFrame =>
    cases ht
    refine h.whenRunning ?_
    split
    · rename_i n rest hr
      split
      · exact h.refl s
      · rename_i hf
        exact h.trans (h.arbiterStep (by simp [State.arbiterStep, hr, hf])) (h.serveArbiter _)
    · exact h.refl s
  | waveCompletion w =>
    cases ht
    refine h.whenRunning ?_
    split
    · rename_i x hx
      split
      · rename_i hf; exact h.trans (h.complete s hx hf) (h.settle _)
      · exact h.refl s
    · exact h.refl s
  | drainEnd =>
    cases ht
    refine h.whenRunning ?_
    split
    · rename_i he; exact h.ends s (.inl he)
    · exact h.refl s
  | returnEnd =>
    cases ht
    refine h.whenRunning ?_
    split
    · rename_i he; exact h.ends s (.inr he)
    · exact h.refl s

end Evolves

end Sys2Proof.Machine

namespace Sys2Proof.Machine

/-! ### The layout of a site, which propagation leaves alone -/

/-- The loaded configuration: entries, member lists, plans, sources, parameters and the node address. -/
def State.layout (s : State) :
    List (Nat × TurbineConfig) × (Nat → List Nat) × Vector (Option Plan) 24 × List (SourceKind × Nat) × Params × Byte :=
  (s.turbines.map fun x => (x.node, x.config), s.members, s.plans, s.sources.map fun x => (x.kind, x.node), s.params, s.nodeAddr)

/-- What `Steady` lists includes the layout. -/
theorem layout_of_steady {s t : State} (h : Steady s t) : t.layout = s.layout := by
  have hc : ∀ l : List Turbine, l.map (fun x => (x.node, x.config)) =
      (l.map Turbine.reported).map fun y => (y.1, y.2.1) := fun l => by simp [Turbine.reported]
  have hm : t.members = s.members := by
    funext r
    simp only [State.members, State.row, h.rows]
  simp only [State.layout, hc, h.turbines, hm, h.plans, h.sources, h.params, h.nodeAddr]

/-- The layout follows from the ledger. -/
theorem layout_of_ledger {s t : State} (h : t.ledger = s.ledger) : t.layout = s.layout := by
  simp only [State.ledger, Ledger.mk.injEq] at h
  obtain ⟨h1, h2, h3, h4, h5, h6, -⟩ := h
  have hm : t.members = s.members := by
    funext r
    simp only [State.members, State.row, h2]
  simp only [State.layout, h1, hm, h3, h4, h5, h6]

/-- A mask flag is no part of the layout (R19). -/
theorem layout_setMask (s : State) (r : Nat) (b : Bool) : (s.setMask r b).layout = s.layout := by
  have hm : (s.setMask r b).members = s.members := by
    funext q
    rcases Nat.lt_or_ge r 16 with hr | hr
    · exact State.members_setMask s r q b hr
    · rw [State.members, State.setMask, State.row_updRow_ge s _ hr]; rfl
  simp only [State.layout, hm]
  rfl

/-- The slots of the two classes (R120). -/
def State.slotCounts (s : State) : Nat × Nat := (s.lowSlots, s.highSlots)

theorem State.gather_eq (items : List Item) (s : State) (num : Nat) :
    s.gather num items = { s with waves := (s.gather num items).waves } := by
  unfold State.gather
  generalize hf : (fun (u : State) (i : Item) => u.updWave num fun w =>
    { w with targets := enterTarget i.node.toNat (u.targetOf i) w.targets }) = f
  have hstep : ∀ u i, f u i = { u with waves := (f u i).waves } := fun u i => by subst hf; rfl
  induction items generalizing s with
  | nil => rfl
  | cons i items ih =>
    rw [List.foldl_cons, ih, hstep s i]

theorem State.foldItem_eq (num : Nat) (s : State) (i : Item) :
    State.foldItem num s i = { s with waves := (State.foldItem num s i).waves } := by
  unfold State.foldItem
  split <;> rfl

theorem State.foldl_foldItem_eq (num : Nat) (items : List Item) (s : State) :
    items.foldl (State.foldItem num) s = { s with waves := (items.foldl (State.foldItem num) s).waves } := by
  induction items generalizing s with
  | nil => rfl
  | cons i items ih => rw [List.foldl_cons, ih, State.foldItem_eq]

namespace Propagates

variable {R : State → State → Prop} (h : Propagates R)
  (keep : ∀ {s t : State}, t.layout = s.layout → t.slotCounts = s.slotCounts → R s t)
  (clear : ∀ {s t : State}, t.layout = s.layout → t.slotCounts = (0, 0) → R s t)

include h keep

/-- A step after a change that keeps the layout and the slots. -/
theorem keepThen {s t u : State} (a : R t u) (hl : t.layout = s.layout) (hc : t.slotCounts = s.slotCounts) : R s u :=
  h.trans (keep hl hc) a

theorem closeForming (s : State) : R s s.closeForming := by
  unfold State.closeForming
  split
  · exact h.refl s
  · rename_i w _
    split
    · exact keepThen h keep (h.notify { s with waves := s.waves.filter fun x => x.running, quiet := none, quietDue := false } _) rfl rfl
    · rename_i sec p _
      dsimp only
      have h1 : R s (s.updWave w.num fun _ => s.closedWave w sec p).stopQuiet := keep rfl rfl
      have finish : ∀ u : State, R s u → R s ((u.tally fun c => { c with closed := c.closed + 1 }).notify
          (.waveClosed w.num w.set sec ((s.closedWave w sec p).steps.countP fun st => st.state != .empty)
            (s.closedWave w sec p).outside)).completeWaves := fun u hu =>
        h.trans hu (h.trans (keep (t := u.tally _) rfl rfl) (h.trans (h.notify _ _) (h.completeWaves _)))
      split
      · exact finish _ (h.trans h1 (h.enterHolding _ _ _))
      · exact finish _ h1

theorem foldItems (s : State) (set : Nat) (items : List Item) : R s (s.foldItems set items) := by
  unfold State.foldItems
  split
  · exact h.refl s
  · dsimp only
    rw [State.foldl_foldItem_eq]
    exact keepThen h keep (h.notify (State.tally { s with waves := _ } _) _) rfl rfl

theorem takeInto (s : State) (num : Nat) (items : List Item) (last : Bool) : R s (s.takeInto num items last) := by
  unfold State.takeInto
  rw [State.gather_eq]
  have h1 : R s { s with waves := (s.gather num items).waves, quiet := some 0, quietDue := false } := keep rfl rfl
  dsimp only
  split
  · exact h.trans h1 (closeForming h keep _)
  · exact h1

theorem intake (s : State) (set : Nat) (last : Bool) (items : List Item) : R s (s.intake set last items) := by
  have open' : ∀ u : State, R u (u.openOrFold set items last) := by
    intro u
    unfold State.openOrFold
    split
    · exact keepThen h keep (takeInto h keep (u.openWave set).1 _ _ _) rfl rfl
    · exact foldItems h keep u _ _
  unfold State.intake
  split
  · split
    · exact takeInto h keep s _ _ _
    · exact h.trans (closeForming h keep s) (open' _)
  · exact open' s

include clear

/-- A relation that propagation keeps, and that only the layout and the slots decide otherwise, is one that every command keeps. -/
theorem evolves : Evolves R where
  refl := h.refl
  trans := h.trans
  inert := fun {s t} e => keep (layout_of_ledger e) (by
    simp only [State.ledger, Ledger.mk.injEq] at e
    simp [State.slotCounts, e])
  sources s g hg := keep (by simp only [State.layout, List.map_map, Function.comp_def, hg]; rfl) rfl
  live s g _ := keep (by simp only [State.layout, List.map_map, Function.comp_def]; rfl) rfl
  tap s t f r k _ := keep (by
    simp only [State.updLive_eq, State.layout, List.map_map, Function.comp_def]; rfl) rfl
  waves s g _ := keep rfl rfl
  masks s r b := keep (layout_setMask s r b) rfl
  settleAfter := h.settleAfter
  stall s t _ _ := h.stall s t
  report s t _ := h.arbiterReport s t
  arbiterStep := h.arbiterStep
  release s n r _ := h.trans (h.releaseStep s n r) (h.completeWaves _)
  complete s n w _ _ := h.completeWave s w
  ends s _ := h.endToPass s
  close := closeForming h keep
  intake s set last items _ := intake h keep s set last items
  foldIn := foldItems h keep
  enterReturn s c n _ := h.enterReturn (fun _ => keep rfl rfl) s c n
  enterDrain s _ := h.enterDrain (fun _ => keep rfl rfl) s
  veer := h.veer fun _ => keep rfl rfl
  clear := fun {s t} ⟨c, e⟩ => by
    refine clear ((layout_of_ledger e).trans ?_) ?_
    · simp only [State.clearSteering, State.clearDivider, State.setMode, State.layout, List.map_map, Function.comp_def]; rfl
    · simp only [State.ledger, Ledger.mk.injEq] at e
      simp [State.slotCounts, e, State.clearSteering, State.setMode]
  steer := fun {s t} _ ⟨c, e⟩ => by
    refine keep ((layout_of_ledger e).trans rfl) ?_
    simp only [State.ledger, Ledger.mk.injEq] at e
    simp [State.slotCounts, e]
  skipAt := h.skipAt
  neutral s c rs _ _ := by
    have hrows : ∀ u r, R u ((u.setMask r true).gainNeutral r).completeWaves := fun u r => by
      exact keepThen h keep (h.trans (h.gainNeutral _ r) (h.completeWaves _)) (layout_setMask u r true) rfl
    exact h.trans (keep (t := s.setNeutralCause c) rfl rfl) (h.trans (h.fold _ hrows rs _) (h.judgeNeutral _))

end Propagates

end Sys2Proof.Machine

namespace Sys2Proof.Machine

/-! ### The requests that configure -/

/-- A stored plan has its fields in range (R40, R41) and names no row twice. -/
def Plan.ok (p : Plan) : Prop :=
  (512 ≤ p.k ∧ p.k ≤ 1024) ∧ p.hmin ≤ p.hmax ∧ (1 ≤ p.entries.length ∧ p.entries.length ≤ 16) ∧
    (∀ e ∈ p.entries, e.row ≤ 15) ∧ (p.entries.map fun e => e.row).Nodup

/-- What a configuring request makes of the ledger: nothing, where it is refused; a parameter, in PASS if it is marked so; and in PASS alone
an entry loaded or dropped, the source list or a plan slot. -/
inductive Configured (s : State) : State → Prop
  | refused {t : State} (e : t.ledger = s.ledger) : Configured s t
  | parameter {t : State} (n v : Nat) (hp : passOnly n = true → s.mode = .pass) (e : t.ledger = (s.putParam n v).ledger) :
    Configured s t
  | loaded {t : State} (node : Nat) (c : TurbineConfig) (hm : s.mode = .pass) (hl : Loadable s node c)
    (e : t.ledger = (s.loadEntry node c).ledger) : Configured s t
  | dropped {t : State} (x : Turbine) (hm : s.mode = .pass) (hx : s.turbine? x.node = some x)
    (e : t.ledger = (s.dropEntry x).ledger) : Configured s t
  | sources {t : State} (l : List Source) (hm : s.mode = .pass) (e : t.ledger = { s with sources := l }.ledger) : Configured s t
  | planned {t : State} (sector : Nat) (p : Option Plan) (hm : s.mode = .pass) (hp : ∀ q ∈ p, q.ok)
    (e : t.ledger = (s.putPlan sector p).ledger) : Configured s t

/-- A traversal of a list that succeeds gives as many values, each from an entry of the list. -/
theorem of_mapM_some {α β : Type} {f : α → Option β} {l : List α} {m : List β} (h : l.mapM f = some m) :
    m.length = l.length ∧ ∀ b ∈ m, ∃ a ∈ l, f a = some b := by
  induction l generalizing m with
  | nil => cases h; simp
  | cons a l ih =>
    simp only [List.mapM_cons, Option.bind_eq_bind, Option.bind_eq_some_iff, Option.pure_def, Option.some.injEq] at h
    obtain ⟨b, hb, m', hm', rfl⟩ := h
    obtain ⟨hlen, hmem⟩ := ih hm'
    refine ⟨by simp [hlen], fun x hx => ?_⟩
    rcases List.mem_cons.1 hx with rfl | hx
    · exact ⟨a, List.mem_cons_self, hb⟩
    · obtain ⟨y, hy, hf⟩ := hmem x hx
      exact ⟨y, List.mem_cons_of_mem _ hy, hf⟩

/-- An accepted plan entry names a row (R41). -/
theorem entryOf?_row {q : EntryReq} {x : PlanEntry} (h : entryOf? q = some x) : x.row ≤ 15 := by
  unfold entryOf? at h
  split at h
  · split at h
    · cases h
    · rename_i hr; cases h; exact Nat.le_of_not_lt fun c => hr (.inl c)
  · cases h

/-- An accepted plan is well formed (R50). -/
theorem planOfReq?_ok {q : PlanReq} {p : Plan} (h : planOfReq? q = some p) (hf : p.fits = true) : p.ok := by
  unfold planOfReq? at h
  split at h
  · cases h
  · split at h
    · cases h
    · rename_i hr
      obtain ⟨es, hes, rfl⟩ := Option.map_eq_some_iff.1 h
      obtain ⟨hlen, hmem⟩ := of_mapM_some hes
      have hlen : es.length = q.count.toNat := by
        rw [hlen, List.length_take]
        omega
      have hcount : q.count.toNat ≠ 0 := fun c => hr (by rw [← toNat_zero_iff q.count]; tauto)
      simp only [Plan.fits, Bool.and_eq_true, decide_eq_true_eq] at hf
      refine ⟨by dsimp only; omega, by dsimp only; omega, by dsimp only; omega, fun x hx => ?_, hf.1⟩
      obtain ⟨a, -, ha⟩ := hmem x hx
      exact entryOf?_row ha

/-- A configuring request does one of the things that `Configured` lists. -/
theorem State.execute_configures (s : State) (e : Env) {q : Request} (hq : q.configures = true) :
    Configured s (s.execute e q) := by
  cases q with
  | setParam number value =>
    simp only [State.execute, State.doSetParam]
    split
    · rename_i hk
      refine .parameter number.toNat value.toNat (fun hp => ?_) rfl
      unfold State.checkSetParam at hk
      by_contra hm
      split at hk
      · cases hk
      · rw [if_pos (by simp [hp, hm])] at hk
        cases hk
    · exact .refused rfl
  | loadTurbine q =>
    change Configured s (s.doLoadTurbine e q)
    rcases s.doLoadTurbine_cases e q with ⟨-, he⟩ | ⟨-, hm, c, hc, hk, he⟩
    · rw [he]; exact .refused rfl
    · rw [he]; exact .loaded _ c hm (loadable_of_accepted hc hk) rfl
  | dropTurbine node =>
    simp only [State.execute, State.doDropTurbine]
    split
    · exact .refused rfl
    · rename_i hm
      split
      · exact .refused rfl
      · split
        · exact .refused rfl
        · rename_i x hx
          obtain ⟨-, hn⟩ := State.turbine?_mem hx
          exact .dropped x (not_not.1 hm) (hn ▸ hx) rfl
  | loadSources number entries =>
    simp only [State.execute, State.doLoadSources]
    split
    · exact .refused rfl
    · rename_i hm
      split
      · exact .refused rfl
      · split
        · exact .refused rfl
        · exact .sources _ (not_not.1 hm) rfl
  | loadPlan q =>
    simp only [State.execute, State.doLoadPlan]
    split
    · exact .refused rfl
    · rename_i hm
      split
      · exact .refused rfl
      · rename_i p hp
        split
        · rename_i hf
          exact .planned _ (some p) (not_not.1 hm) (fun x hx => by cases hx; exact planOfReq?_ok hp hf) rfl
        · exact .refused rfl
  | dropPlan sector =>
    simp only [State.execute, State.doDropPlan]
    split
    · exact .refused rfl
    · rename_i hm
      split
      · exact .refused rfl
      · split
        · exact .refused rfl
        · exact .planned _ none (not_not.1 hm) (fun _ hx => by cases hx) rfl
  | _ => cases hq

end Sys2Proof.Machine

namespace Sys2Proof.Machine

/-- A step runs the command at the front of the queue on the state with the queue's rest; on an empty queue it idles. -/
theorem step_next {s t : State} (h : step s = .next t) :
    (s.pending = [] ∧ t = s) ∨ ∃ c rest, s.pending = c :: rest ∧ exec c { s with pending := rest } = .next t := by
  unfold step at h
  split at h
  · rename_i hp; cases h; exact .inl ⟨hp, rfl⟩
  · rename_i c rest hp; exact .inr ⟨c, rest, hp, h⟩

/-- POWER_ON gives the reset state's ledger, but for the node address. -/
theorem exec_powerOn {a : Byte} {b d e f : Bool} {s t : State} (h : exec (.powerOn a b d e f) s = .next t) :
    t.ledger = { State.reset with nodeAddr := a }.ledger := by
  cases h; rfl

theorem layout_propagates : Propagates fun s t => t.layout = s.layout where
  refl _ := rfl
  trans a b := b.trans a
  live s n g hg := layout_of_steady (steady_propagates.live s n g hg)
  wave _ _ _ _ := rfl
  unwave _ _ := rfl
  neutral _ _ := rfl
  divider _ _ := rfl
  lists _ _ _ _ := rfl
  take _ _ _ := rfl
  give _ _ := rfl
  shift _ := rfl
  sendU _ _ := rfl
  sendD _ _ _ := rfl
  tally _ _ _ := rfl
  draw _ _ := rfl
  mode _ _ _ := rfl
  lapse _ := rfl

/-- Every command but POWER_ON keeps the layout, unless it carries a configuring request. -/
theorem layout_evolves : Evolves fun s t => t.layout = s.layout :=
  layout_propagates.evolves (fun h _ => h) (fun h _ => h)

/-! ### The turbine table (R1, R18) -/

/-- The table in node order and the member lists true to it are a matter of the layout. -/
theorem rowTableOk_of_layout {s t : State} (e : t.layout = s.layout) (h : RowTableOk s) : RowTableOk t := by
  simp only [State.layout, Prod.mk.injEq] at e
  obtain ⟨hts, hm, -, -, -, ha⟩ := e
  have hfrom : ∀ x ∈ t.turbines, ∃ y ∈ s.turbines, y.node = x.node ∧ y.config = x.config := fun x hx => by
    obtain ⟨y, hy, e⟩ := List.mem_map.1 (hts ▸ List.mem_map_of_mem hx)
    exact ⟨y, hy, congrArg Prod.fst e, congrArg Prod.snd e⟩
  have hto : ∀ y ∈ s.turbines, ∃ x ∈ t.turbines, y.node = x.node ∧ y.config = x.config := fun y hy => by
    obtain ⟨x, hx, e⟩ := List.mem_map.1 (hts ▸ List.mem_map_of_mem hy)
    exact ⟨x, hx, (congrArg Prod.fst e).symm, (congrArg Prod.snd e).symm⟩
  have hnodes : (t.turbines.map fun x => x.node) = s.turbines.map fun x => x.node := by
    have := congrArg (List.map Prod.fst) hts
    simpa [Function.comp_def] using this
  rw [RowTableOk, hnodes, hm, ha]
  refine ⟨h.1, fun x hx => ?_, fun r hr => ⟨fun n => ?_, (h.2.2 r hr).2.imp fun hab ta hta tb htb ea eb => ?_⟩⟩
  · obtain ⟨y, hy, en, ec⟩ := hfrom x hx
    rw [← en, ← ec]
    exact h.2.1 y hy
  · rw [h.mem_members hr]
    constructor
    · rintro ⟨y, hy, en, er⟩
      obtain ⟨x, hx, e1, e2⟩ := hto y hy
      exact ⟨x, hx, e1 ▸ en, e2 ▸ er⟩
    · rintro ⟨x, hx, en, er⟩
      obtain ⟨y, hy, e1, e2⟩ := hfrom x hx
      exact ⟨y, hy, e1 ▸ en, e2 ▸ er⟩
  · obtain ⟨ya, hya, na, ca⟩ := hfrom ta hta
    obtain ⟨yb, hyb, nb, cb⟩ := hfrom tb htb
    rw [← ca, ← cb]
    exact hab ya hya yb hyb (na.trans ea) (nb.trans eb)

theorem rowTableOk_of_ledger {s t : State} (e : t.ledger = s.ledger) (h : RowTableOk s) : RowTableOk t :=
  rowTableOk_of_layout (layout_of_ledger e) h

/-- A configuring request keeps the turbine table in order. -/
theorem rowTableOk_configured {s t : State} (h : RowTableOk s) (c : Configured s t) : RowTableOk t := by
  cases c with
  | refused e => exact rowTableOk_of_ledger e h
  | parameter n v hp e => exact rowTableOk_of_ledger e (s := s.putParam n v) h
  | loaded node c hm hl e => exact rowTableOk_of_ledger e (rowTableOk_loadEntry h hl)
  | dropped x hm hx e => exact rowTableOk_of_ledger e (rowTableOk_dropEntry h hx)
  | sources l hm e => exact rowTableOk_of_ledger e (s := { s with sources := l }) h
  | planned k p hm hp e => exact rowTableOk_of_ledger e (s := s.putPlan k p) h

/-- An invariant that the reset state has under every node address, that a relation of all commands keeps, and that configuring requests
keep, is kept by every step. -/
theorem keptByStep_of {P : State → Prop} (power : ∀ a : Byte, P { State.reset with nodeAddr := a })
    (ledger : ∀ {s t : State}, t.ledger = s.ledger → P s → P t) (evolve : Evolves fun s t => P s → P t)
    (configured : ∀ {s t : State}, P s → Configured s t → P t) : KeptByStep P := by
  intro s t hs hst
  rcases step_next hst with ⟨-, rfl⟩ | ⟨c, rest, -, hx⟩
  · exact hs
  · have h0 : P { s with pending := rest } := ledger (s := s) rfl hs
    by_cases hc : ∃ a b d e f, c = .powerOn a b d e f
    · obtain ⟨a, b, d, e, f, rfl⟩ := hc
      exact ledger (exec_powerOn hx) (power a)
    · rcases evolve.exec (fun a b d e f hp => hc ⟨a, b, d, e, f, hp⟩) hx with he | ⟨s1, e, q, hl, hq, rfl⟩
      · exact he h0
      · exact configured (ledger hl h0) (s1.execute_configures e hq)

theorem rowTable_evolves : Evolves fun s t => RowTableOk s → RowTableOk t :=
  Propagates.evolves (R := fun s t => RowTableOk s → RowTableOk t)
    { refl := fun _ h => h, trans := fun a b h => b (a h)
      live := fun s n g hg => rowTableOk_of_layout (layout_propagates.live s n g hg)
      wave := fun _ _ _ _ => id, unwave := fun _ _ => id, neutral := fun _ _ => id, divider := fun _ _ => id
      lists := fun _ _ _ _ => id, take := fun _ _ _ => id, give := fun _ _ => id, shift := fun _ => id
      sendU := fun _ _ => id, sendD := fun _ _ _ => id, tally := fun _ _ _ => id, draw := fun _ _ => id
      mode := fun _ _ _ => id, lapse := fun _ => id }
    (fun h _ => rowTableOk_of_layout h) (fun h _ => rowTableOk_of_layout h)

/-- Settles O11: the layout is kept by every command but a load or a drop, and these keep the table in order. -/
theorem rowTableKept : Obligations.RowTableKept :=
  keptByStep_of (fun _ => rowTableOk_of_empty rfl members_reset) rowTableOk_of_ledger rowTable_evolves rowTableOk_configured

/-! ### The configuration outside PASS -/

/-- A parameter that is not marked PASS leaves the four that are as they stand (R177). -/
theorem Params.put_not_passOnly (p : Params) {n : Nat} (v : Nat) (hn : passOnly n = false) :
    (p.put n v).budget = p.budget ∧ (p.put n v).headroom = p.headroom ∧ (p.put n v).stormEdge = p.stormEdge ∧
      (p.put n v).polarity = p.polarity := by
  unfold Params.put
  split <;> simp_all [passOnly]

theorem layout_with_params {s t : State} (h : t.layout = s.layout) (p : Params) :
    { t with params := p }.layout = { s with params := p }.layout := by
  simp only [State.layout, Prod.mk.injEq] at h ⊢
  obtain ⟨h1, h2, h3, h4, -, h6⟩ := h
  exact ⟨h1, h2, h3, h4, trivial, h6⟩

/-- Outside PASS a configuring request changes no part of the configuration and no parameter that is marked PASS. -/
theorem configured_outside_pass {s t : State} (hm : s.mode ≠ .pass) (c : Configured s t) :
    ∃ p : Params, p.budget = s.params.budget ∧ p.headroom = s.params.headroom ∧ p.stormEdge = s.params.stormEdge ∧
      p.polarity = s.params.polarity ∧ t.layout = { s with params := p }.layout := by
  cases c with
  | refused e => exact ⟨s.params, rfl, rfl, rfl, rfl, layout_of_ledger e⟩
  | parameter n v hp e =>
    obtain ⟨h1, h2, h3, h4⟩ := Params.put_not_passOnly s.params v (n := n) (by simpa [hm] using hp)
    exact ⟨s.params.put n v, h1, h2, h3, h4, layout_of_ledger e⟩
  | loaded _ _ h | dropped _ h | sources _ h | planned _ _ h => exact absurd h hm

/-- Settles O12: outside PASS every command but POWER_ON keeps the layout or is refused, or sets a parameter that is not marked PASS. -/
theorem configurationFrozenOutsidePass : Obligations.ConfigurationFrozenOutsidePass := by
  intro s t c rest hm hp hc hst
  have hlay : ∃ p : Params, p.budget = s.params.budget ∧ p.headroom = s.params.headroom ∧
      p.stormEdge = s.params.stormEdge ∧ p.polarity = s.params.polarity ∧ t.layout = { s with params := p }.layout := by
    rcases step_next hst with ⟨hnil, -⟩ | ⟨c', rest', hp', hx⟩
    · simp [hnil] at hp
    · obtain ⟨rfl, rfl⟩ := List.cons_eq_cons.1 (hp.symm.trans hp')
      rcases layout_evolves.exec hc hx with he | ⟨s1, e, q, hl, hq, rfl⟩
      · exact ⟨s.params, rfl, rfl, rfl, rfl, he⟩
      · have hmode : s1.mode = s.mode := congrArg Ledger.mode hl
        have hpar : s1.params = s.params := congrArg Ledger.params hl
        obtain ⟨p, b1, b2, b3, b4, b5⟩ := configured_outside_pass (hmode ▸ hm) (s1.execute_configures e hq)
        exact ⟨p, hpar ▸ b1, hpar ▸ b2, hpar ▸ b3, hpar ▸ b4, b5.trans (layout_with_params (layout_of_ledger hl) p)⟩
  obtain ⟨p, b1, b2, b3, b4, e⟩ := hlay
  simp only [State.layout, Prod.mk.injEq] at e
  obtain ⟨hts, hmem, hplans, hsrc, hpar, haddr⟩ := e
  exact ⟨hts, fun r => congrFun hmem r, hplans, hsrc, hpar ▸ b1, hpar ▸ b2, hpar ▸ b3, hpar ▸ b4, haddr⟩

/-! ### The slots within the budget -/

/-- Propagation keeps the parameters, and the slots within the budget (R120, R128). -/
theorem withinBudget_propagates : Propagates fun s t => t.params = s.params ∧ (WithinBudget s → WithinBudget t) where
  refl _ := ⟨rfl, id⟩
  trans a b := ⟨b.1.trans a.1, b.2 ∘ a.2⟩
  live _ _ _ _ := ⟨rfl, id⟩
  wave _ _ _ _ := ⟨rfl, id⟩
  unwave _ _ := ⟨rfl, id⟩
  neutral _ _ := ⟨rfl, id⟩
  divider _ _ := ⟨rfl, id⟩
  lists _ _ _ _ := ⟨rfl, id⟩
  take s c room := ⟨rfl, fun h => by
    cases c <;> simp only [WithinBudget, State.takeSlot, State.Room, State.slots] at * <;> omega⟩
  give s c := ⟨rfl, fun h => by cases c <;> simp only [WithinBudget, State.giveSlot] at * <;> omega⟩
  shift s := ⟨rfl, fun h => by simp only [WithinBudget, State.shiftSlot] at *; omega⟩
  sendU _ _ := ⟨rfl, id⟩
  sendD _ _ _ := ⟨rfl, id⟩
  tally _ _ _ := ⟨rfl, id⟩
  draw _ _ := ⟨rfl, id⟩
  mode _ _ _ := ⟨rfl, id⟩
  lapse _ := ⟨rfl, id⟩

/-- The slots stand within a budget that no change of the layout moves. -/
theorem withinBudget_of_slots {s t : State} (hp : t.params = s.params) (hc : t.slotCounts = s.slotCounts)
    (h : WithinBudget s) : WithinBudget t := by
  simp only [State.slotCounts, Prod.mk.injEq] at hc
  simpa only [WithinBudget, hp, hc] using h

theorem withinBudget_of_no_slots {t : State} (hc : t.slotCounts = (0, 0)) : WithinBudget t := by
  simp only [State.slotCounts, Prod.mk.injEq] at hc
  simp [WithinBudget, hc]

theorem params_of_layout {s t : State} (h : t.layout = s.layout) : t.params = s.params := by
  simp only [State.layout, Prod.mk.injEq] at h
  exact h.2.2.2.2.1

theorem withinBudget_evolves : Evolves fun s t => t.params = s.params ∧ (WithinBudget s → WithinBudget t) :=
  withinBudget_propagates.evolves
    (fun hl hc => ⟨params_of_layout hl, withinBudget_of_slots (params_of_layout hl) hc⟩)
    (fun hl hc => ⟨params_of_layout hl, fun _ => withinBudget_of_no_slots hc⟩)

/-- A configuring request leaves the slot counts alone. -/
theorem slotCounts_configured {s t : State} (c : Configured s t) : t.slotCounts = s.slotCounts := by
  have key : ∀ u : State, t.ledger = u.ledger → t.slotCounts = u.slotCounts := fun u e => by
    simp only [State.ledger, Ledger.mk.injEq] at e
    simp [State.slotCounts, e]
  cases c with
  | refused e => exact key s e
  | parameter n v _ e => exact key (s.putParam n v) e
  | loaded node c _ _ e => rw [key _ e, State.loadEntry_eq]; rfl
  | dropped x _ _ e => exact key (s.dropEntry x) e
  | sources l _ e => exact key { s with sources := l } e
  | planned k p _ _ e => exact key (s.putPlan k p) e

/-- Over a step that leaves B and Bh as they are, the slots stay within them (R120). -/
theorem withinBudget_step {s t : State} (h : WithinBudget s) (hst : step s = .next t)
    (hb : t.params.budget = s.params.budget) (hh : t.params.headroom = s.params.headroom) : WithinBudget t := by
  rcases step_next hst with ⟨-, rfl⟩ | ⟨c, rest, -, hx⟩
  · exact h
  · by_cases hc : ∃ a b d e f, c = .powerOn a b d e f
    · obtain ⟨a, b, d, e, f, rfl⟩ := hc
      cases hx
      exact withinBudget_of_no_slots rfl
    · rcases withinBudget_evolves.exec (fun a b d e f hp => hc ⟨a, b, d, e, f, hp⟩) hx with he | ⟨s1, e, q, hl, hq, rfl⟩
      · exact he.2 h
      · have hs := slotCounts_configured (s1.execute_configures e hq)
        simp only [State.ledger, Ledger.mk.injEq] at hl
        simp only [State.slotCounts, Prod.mk.injEq] at hs
        simpa only [WithinBudget, hb, hh, hs, hl] using h

end Sys2Proof.Machine

namespace Sys2Proof.Machine

/-! ### MASK set with a turbine that waits for a terminal step

The statement about terminal steps is made under `WavesOk` alone. That leaves states in which a turbine waits in the LOW list for a step that
is already DONE: the event's end grants it, and the owner's REL is taken (R92) although the step is terminal. -/

/-- A DONE step without REL. -/
def doneStep : WaveStep := { row := 0, state := .done, gate := .time, action := .release }

/-- Node 1 waits in the LOW list for step 0 of wave 7, which is DONE. -/
def strayGrant : State :=
  { State.reset with
    mode := .steer
    turbines := [⟨1, ⟨0, 0, .d1, 250, 30⟩, { move := .queued, owner := some (.low 7 0), target := some 80 }⟩]
    low := [1]
    waves := [{ num := 7, set := 0, running := true, steps := [doneStep] }] }

/-- Wave 7 as the grant leaves it. -/
def strayWave : Wave := { num := 7, set := 0, running := true, steps := [{ doneStep with rel := some 0 }] }

def maskEnv : Env := ⟨0, 0, 1, 0, 0, 0⟩

theorem wavesOk_strayGrant : WavesOk strayGrant := ⟨plansOk_reset, by decide⟩

/-- What a MASK request that names no row leaves of the waves there: the DONE step has taken REL. -/
theorem waves_strayGrant :
    (strayGrant.request maskEnv (.mask 0 1)).waves = [strayWave] := by decide

/-- Refutes O41: in `strayGrant` MASK with "set" and no row named changes a terminal step, as the grant at the event's end takes its REL. -/
theorem not_maskSetAndClear : ¬ Obligations.MaskSetAndClear := by
  intro h
  have hs : Served strayGrant := ⟨⟨rfl, rfl⟩, by decide, by decide⟩
  obtain ⟨t, masks, rest, ht, -, -, hsteps, -⟩ := (h strayGrant maskEnv 0 hs).2 wavesOk_strayGrant
  have hw : t.waves = [strayWave] := by
    cases ht
    exact waves_strayGrant
  obtain ⟨st', hst', -, -, hterm⟩ := hsteps { num := 7, set := 0, running := true, steps := [doneStep] }
    List.mem_cons_self doneStep List.mem_cons_self strayWave (by rw [hw]; exact List.mem_cons_self) rfl
  have hrel := congrArg WaveStep.rel (hterm rfl)
  rw [List.mem_singleton.1 hst'] at hrel
  cases hrel

end Sys2Proof.Machine

/-!
What the operations on steps leave alone: they change the waves, the divider, the counters and U's queue, and nothing else.
-/

namespace Sys2Proof.Machine

/-- The state without the fields that the operations on steps change. -/
def State.aside (s : State) : State := { s with waves := [], divider := {}, counters := {}, queueU := [], ownDropped := 0 }

/-- Only the waves, the divider, the counters and U's queue differ. -/
def WavesOnly (s t : State) : Prop := t.aside = s.aside

namespace WavesOnly

theorem refl (s : State) : WavesOnly s s := rfl

theorem trans {s t u : State} (a : WavesOnly s t) (b : WavesOnly t u) : WavesOnly s u := Eq.trans (b : u.aside = t.aside) a

theorem fold {α : Type} {f : State → α → State} (hf : ∀ s a, WavesOnly s (f s a)) (l : List α) (s : State) :
    WavesOnly s (l.foldl f s) := by
  induction l generalizing s with
  | nil => rfl
  | cons a l ih => exact (hf s a).trans (ih (f s a))

section
variable {s t : State} (h : WavesOnly s t)
include h

theorem aside_eq : t.aside = s.aside := h

theorem turbines : t.turbines = s.turbines := (congrArg State.turbines h.aside_eq :)
theorem neutral : t.neutral = s.neutral := (congrArg State.neutral h.aside_eq :)
theorem mode : t.mode = s.mode := (congrArg State.mode h.aside_eq :)
theorem high : t.high = s.high := (congrArg State.high h.aside_eq :)
theorem low : t.low = s.low := (congrArg State.low h.aside_eq :)
theorem retargets : t.retargets = s.retargets := (congrArg State.retargets h.aside_eq :)
theorem lowSlots : t.lowSlots = s.lowSlots := (congrArg State.lowSlots h.aside_eq :)
theorem highSlots : t.highSlots = s.highSlots := (congrArg State.highSlots h.aside_eq :)
theorem params : t.params = s.params := (congrArg State.params h.aside_eq :)
theorem plans : t.plans = s.plans := (congrArg State.plans h.aside_eq :)
theorem rows : t.rows = s.rows := (congrArg State.rows h.aside_eq :)
theorem mark : t.mark = s.mark := (congrArg State.mark h.aside_eq :)
theorem waveCounter : t.waveCounter = s.waveCounter := (congrArg State.waveCounter h.aside_eq :)
theorem nodeAddr : t.nodeAddr = s.nodeAddr := (congrArg State.nodeAddr h.aside_eq :)
theorem queueD : t.queueD = s.queueD := (congrArg State.queueD h.aside_eq :)
theorem filter : t.filter = s.filter := (congrArg State.filter h.aside_eq :)
theorem yholdLine : t.yholdLine = s.yholdLine := (congrArg State.yholdLine h.aside_eq :)

theorem members (r : Nat) : t.members r = s.members r := by simp only [State.members, State.row, h.rows]

theorem masked (r : Nat) : t.masked r = s.masked r := by simp only [State.masked, State.row, h.rows]

theorem turbine? (n : Nat) : t.turbine? n = s.turbine? n := by simp only [State.turbine?, h.turbines]

theorem ownerOf (n : Nat) : t.ownerOf n = s.ownerOf n := by simp only [State.ownerOf, h.turbine?]

theorem queuedFor (n r : Nat) : t.queuedFor n r = s.queuedFor n r := by
  simp only [State.queuedFor, h.low, h.ownerOf]

theorem neutralQueued (r : Nat) : t.neutralQueued r = s.neutralQueued r := by
  simp only [State.neutralQueued, h.high, h.ownerOf]

end

section
variable (s : State) (n r : Nat)

theorem updStep (g : WaveStep → WaveStep) : WavesOnly s (s.updStep n r g) := rfl

theorem enterHolding : WavesOnly s (s.enterHolding n r) := by
  unfold State.enterHolding
  split
  · rfl
  · split <;> rfl

theorem trigger : WavesOnly s (s.trigger n r) := by
  unfold State.trigger
  split
  · split
    · exact enterHolding s _ _
    · rfl
  · rfl

theorem dropHold : WavesOnly s (s.dropHold n r) := by
  unfold State.dropHold
  split
  · split <;> rfl
  · rfl

theorem enterDone : WavesOnly s (s.enterDone n r) := by
  unfold State.enterDone
  split
  · rfl
  · dsimp only
    split
    · rfl
    · exact (updStep s n r _).trans (trigger _ n r)

theorem completeWave (w : Wave) : WavesOnly s (s.completeWave w) := rfl

theorem completeWaves : WavesOnly s s.completeWaves := fold completeWave _ s

theorem skipStep (x : SkipReason) : WavesOnly s (s.skipStep n r x) := by
  have h1 : WavesOnly s ((s.dropHold n r).updStep n r fun x => { x with state := .skipped, owesTest := false, owesDeadline := false }) :=
    (dropHold s n r).trans rfl
  have h2 : ∀ u : State, WavesOnly u ((u.tally fun c => { c with skips := c.skips + 1 }).notify (.stepSkipped n r x)) :=
    fun _ => rfl
  exact (h1.trans (trigger _ n r)).trans ((h2 _).trans (completeWaves _))

theorem skipAt (x : SkipReason) : WavesOnly s (s.skipAt r x) := fold (fun s n => skipStep s n r x) _ s

theorem cancelStep : WavesOnly s (s.cancelStep n r) := (dropHold s n r).trans rfl

theorem returnStep (k : Nat × Nat) : WavesOnly s (s.returnStep k) := by
  unfold State.returnStep
  split
  · rfl
  · split
    · exact cancelStep s _ _
    · rfl

theorem deadlineAction : WavesOnly s (s.deadlineAction n r) := by
  unfold State.deadlineAction
  split
  · rfl
  · split
    · rfl
    · exact skipStep s n r _

theorem grantedLow : WavesOnly s (s.grantedLow n r) := by
  unfold State.grantedLow
  split
  · rfl
  · rename_i st _
    dsimp only
    have h2 : ∀ u, WavesOnly s u → WavesOnly s (if st.state = .releasing ∧ u.queuedFor n r = [] then
        u.updStep n r fun x => { x with state := .moving } else u) := by
      intro u hu
      split
      · exact hu.trans rfl
      · exact hu
    refine h2 _ ?_
    split
    · split
      · exact (updStep s n r _).trans (trigger _ n r)
      · rfl
    · rfl

theorem freedLow (k : FreeKind) : WavesOnly s (s.freedLow n r k) := by
  unfold State.freedLow
  dsimp only
  have h1 : ∀ g, WavesOnly s (s.updStep n r g) := updStep s n r
  split
  · split
    · exact (h1 _).trans ((enterDone _ n r).trans (completeWaves _))
    · exact h1 _
  · exact h1 _

theorem movedLow : WavesOnly s (s.movedLow n r) := rfl

end

end WavesOnly

end Sys2Proof.Machine

namespace Sys2Proof.Machine

/-! ### STALLED follows no propagation but a stall (R11, R135) -/

/-- Every entry's node with its STALLED flag. -/
def State.stalls (s : State) : List (Nat × Bool) := s.turbines.map fun y => (y.node, y.live.stalled)

theorem stalls_updLive (s : State) (n : Nat) {g : Live → Live} (hg : ∀ l, (g l).stalled = l.stalled) :
    (s.updLive n g).stalls = s.stalls := by
  simp only [State.stalls, State.updLive, List.map_map]
  refine List.map_congr_left fun t _ => ?_
  simp only [Function.comp]
  split
  · rw [hg]
  · rfl

theorem WavesOnly.stalls {s t : State} (h : WavesOnly s t) : t.stalls = s.stalls := by rw [State.stalls, h.turbines]; rfl

/-- The state as the request at the head of a class's list leaves the list (R130). -/
def State.dequeue (s : State) : SlotClass → State
  | .high => { s with high := s.high.tail }
  | .low => { s with low := s.low.tail }

/-- The live record as a frame with a target leaves it, in a slot of a class (R130, R138). -/
def Live.granted (c : SlotClass) (g : Int) (l : Live) : Live :=
  { l with move := .moving, slot := some c, commanded := some g, deadline := .pending }

/-- The state as the arbiter places a turbine's frame: the frame is queued, the record is MOVING, and the DEADLINE request is placed (R130,
R138). -/
def State.framed (s : State) (t : Turbine) (c : SlotClass) (g : Int) (set : Nat) : State :=
  ((s.sendD (s.setpointFrame t.node set (t.config.format.command g))).updLive t.node (Live.granted c g)).place
    (t.deadlineRequest g)

/-- A grant: the request leaves its list, the frame is placed, the slot is taken and the owner is told (R130). -/
theorem State.grantNode_eq {s : State} {n : Nat} {t : Turbine} (h : s.turbine? n = some t) (c : SlotClass) :
    s.grantNode n c =
      (((s.dequeue c).framed t c (t.live.target.getD 0) (s.ownerSet t.live.owner)).takeSlot c).tellGranted t.live.owner := by
  obtain ⟨-, rfl⟩ := State.turbine?_mem h
  unfold State.grantNode
  cases c <;> (dsimp only [State.turbine?] at h ⊢; rw [h]; rfl)

/-- A retarget frame: the turbine leaves the retarget list and its target-0 frame is placed in its HIGH slot (R138). -/
theorem State.retargetNode_eq {s : State} {n : Nat} {t : Turbine} (h : s.turbine? n = some t) :
    s.retargetNode n = State.framed { s with retargets := s.retargets.tail } t .high 0 0 := by
  obtain ⟨-, rfl⟩ := State.turbine?_mem h
  unfold State.retargetNode
  dsimp only [State.turbine?] at h ⊢
  rw [h]
  rfl

theorem State.retargetNode_absent {s : State} {n : Nat} (h : s.turbine? n = none) :
    s.retargetNode n = { s with retargets := s.retargets.tail } := by
  unfold State.retargetNode
  dsimp only [State.turbine?] at h ⊢
  rw [h]

theorem State.dequeue_turbines (s : State) (c : SlotClass) : (s.dequeue c).turbines = s.turbines := by cases c <;> rfl

theorem State.grantNode_absent {s : State} {n : Nat} (h : s.turbine? n = none) (c : SlotClass) :
    s.grantNode n c = s.dequeue c := by
  unfold State.grantNode
  cases c <;> (dsimp only [State.turbine?] at h ⊢; rw [h]) <;> rfl

theorem stalls_framed (s : State) (t : Turbine) (c : SlotClass) (g : Int) (set : Nat) : (s.framed t c g set).stalls = s.stalls :=
  (stalls_updLive (s.sendD _) t.node (g := Live.granted c g) fun _ => rfl).trans rfl

theorem stalls_fold {α : Type} {f : State → α → State} (hf : ∀ s a, (f s a).stalls = s.stalls) (l : List α) (s : State) :
    (l.foldl f s).stalls = s.stalls := by
  induction l generalizing s with
  | nil => rfl
  | cons a l ih => exact (ih (f s a)).trans (hf s a)

theorem stalls_releaseMember (ts : List (Nat × Int)) (n r : Nat) (s : State) (node : Nat) :
    (State.releaseMember ts n r s node).stalls = s.stalls := by
  unfold State.releaseMember
  split
  · rfl
  · split
    · rfl
    · split
      · rfl
      · split
        · rename_i target _ _ _ _ _ _
          exact (stalls_updLive (s.updStep n r fun x => { x with needed := x.needed + 1 }) node
            (g := fun l => { l with move := .queued, owner := some (.low n r), target := some target }) fun _ => rfl).trans rfl
        · rfl

theorem stalls_releaseStep (s : State) (n r : Nat) : (s.releaseStep n r).stalls = s.stalls := by
  unfold State.releaseStep
  split
  · rfl
  · split
    · rfl
    · dsimp only
      split
      · exact (WavesOnly.enterDone _ n r).stalls.trans (stalls_fold (stalls_releaseMember _ n r) _ _)
      · exact stalls_fold (stalls_releaseMember _ n r) (s.members r) _

/-- A choice advances the draw counter at most. -/
theorem State.choose_eq {s t : State} {l : List (Nat × Nat)} {k : Nat × Nat} (e : s.choose l = some (k, t)) :
    k ∈ l ∧ ∃ d, t = { s with draws := d } := by
  match l, e with
  | [a], e =>
    simp only [State.choose, Option.some.injEq, Prod.mk.injEq] at e
    exact ⟨by simp [e.1], s.draws, e.2 ▸ rfl⟩
  | a :: b :: l, e =>
    simp only [State.choose, Option.some.injEq, Prod.mk.injEq] at e
    refine ⟨?_, s.draws + 1, e.2 ▸ rfl⟩
    obtain ⟨e, -⟩ := e
    cases hi : (a :: b :: l)[Config.pickStep s.draws % ((b :: l).length + 1)]? with
    | none => rw [hi] at e; simp [← e]
    | some x => rw [hi] at e; exact e ▸ List.mem_of_getElem? hi

theorem stalls_releaseLoop (fuel : Nat) (released : List Nat) (s : State) :
    (State.releaseLoop fuel released s).stalls = s.stalls := by
  induction fuel generalizing released s with
  | zero => rfl
  | succ fuel ih =>
    unfold State.releaseLoop
    split
    · rename_i k s1 e
      obtain ⟨-, d, rfl⟩ := State.choose_eq e
      rw [ih, (WavesOnly.completeWaves _).stalls, stalls_releaseStep]
      rfl
    · split
      · rename_i k s1 e
        obtain ⟨-, d, rfl⟩ := State.choose_eq e
        rw [ih, (WavesOnly.deadlineAction _ _ _).stalls]
        rfl
      · rfl

theorem stalls_tellGranted (s : State) (o : Option Owner) : (s.tellGranted o).stalls = s.stalls := by
  unfold State.tellGranted
  split
  · exact (WavesOnly.grantedLow s _ _).stalls
  · unfold State.grantedNeutral; split <;> rfl
  · rfl

theorem stalls_judgeNeutral (s : State) : s.judgeNeutral.stalls = s.stalls := by
  unfold State.judgeNeutral
  split <;> rfl

theorem stalls_tellFreed (s : State) (o : Option Owner) (k : FreeKind) : (s.tellFreed o k).stalls = s.stalls := by
  unfold State.tellFreed
  split
  · exact (WavesOnly.freedLow s _ _ _).stalls
  · exact (stalls_judgeNeutral (s.updNeutral _ _)).trans rfl
  · rfl

theorem stalls_grantNode (s : State) (n : Nat) (c : SlotClass) : (s.grantNode n c).stalls = s.stalls := by
  have hd : (s.dequeue c).stalls = s.stalls := by cases c <;> rfl
  cases ht : s.turbine? n with
  | none => rw [State.grantNode_absent ht, hd]
  | some t => rw [State.grantNode_eq ht, stalls_tellGranted]; exact (stalls_framed _ _ _ _ _).trans hd

theorem stalls_retargetNode (s : State) (n : Nat) : (s.retargetNode n).stalls = s.stalls := by
  cases ht : s.turbine? n with
  | none => rw [State.retargetNode_absent ht]; rfl
  | some t => rw [State.retargetNode_eq ht]; exact stalls_framed { s with retargets := s.retargets.tail } _ _ _ _

theorem stalls_arbiterLoop (fuel : Nat) (s : State) : (State.arbiterLoop fuel s).stalls = s.stalls := by
  induction fuel generalizing s with
  | zero => rfl
  | succ fuel ih =>
    unfold State.arbiterLoop
    split
    · rename_i t e
      rw [ih]
      unfold State.arbiterStep at e
      split at e
      · split at e
        · cases e
        · cases e; exact stalls_retargetNode s _
      · obtain ⟨p, -, rfl⟩ := Option.map_eq_some_iff.1 e
        exact stalls_grantNode s _ _
    · rfl

theorem stalls_freeSlot (s : State) (n : Nat) (k : FreeKind) : (s.freeSlot n k).stalls = s.stalls := by
  unfold State.freeSlot
  split
  · rfl
  · dsimp only
    have h1 : ((s.withdraw (.deadline n)).updLive n Live.toIdle).stalls = s.stalls :=
      stalls_updLive (s.withdraw (.deadline n)) n fun _ => rfl
    split <;> exact (stalls_tellFreed _ _ _).trans h1

theorem stalls_arbiterReport (s : State) (t : Turbine) : (s.arbiterReport t).stalls = s.stalls := by
  unfold State.arbiterReport
  split
  · exact stalls_freeSlot s _ _
  · exact stalls_freeSlot s _ _
  · unfold State.tellMoved; split <;> rfl
  · exact (stalls_freeSlot { s with retargets := s.retargets.filter fun n => n != t.node } _ _).trans rfl
  all_goals rfl

theorem stalls_settle (s : State) : s.settle.stalls = s.stalls := by
  have hj : ∀ u : State, u.judgeEnd.stalls = u.stalls := fun u => by
    unfold State.judgeEnd
    split
    · rfl
    · split <;> rfl
  exact (stalls_arbiterLoop _ _).trans ((hj _).trans (stalls_releaseLoop _ _ _))

/-! ### A REPORT frame (R7, R8, R24, R166) -/

/-- U's queue grows at its tail by own frames while an event propagates. -/
theorem ownGrowth_propagates : Propagates fun s t => ∃ rest, t.queueU = s.queueU ++ rest ∧ ∀ f ∈ rest, f.own = true where
  refl s := ⟨[], by simp⟩
  trans := by
    rintro s t u ⟨a, ha, oa⟩ ⟨b, hb, ob⟩
    exact ⟨a ++ b, by rw [hb, ha, List.append_assoc], fun f hf => (List.mem_append.1 hf).elim (oa f) (ob f)⟩
  live _ _ _ _ := ⟨[], by simp⟩
  wave _ _ _ _ := ⟨[], by simp⟩
  unwave _ _ := ⟨[], by simp⟩
  neutral _ _ := ⟨[], by simp⟩
  divider _ _ := ⟨[], by simp⟩
  lists _ _ _ _ := ⟨[], by simp⟩
  take _ _ _ := ⟨[], by simp⟩
  give _ _ := ⟨[], by simp⟩
  shift _ := ⟨[], by simp⟩
  sendU s f := by
    unfold State.sendU
    by_cases c : ownFrames s.queueU < 4
    · exact ⟨[⟨true, f⟩], by simp [c], by simp⟩
    · exact ⟨[], by simp [c], by simp⟩
  sendD _ _ _ := ⟨[], by simp⟩
  tally _ _ _ := ⟨[], by simp⟩
  draw _ _ := ⟨[], by simp⟩
  mode _ _ _ := ⟨[], by simp⟩
  lapse _ := ⟨[], by simp⟩

/-- What a report writes into a record, beside STALLED (R8). -/
theorem Live.report_written (l : Live) (f : Format) (r : ReportBody) (k : Nat) :
    (l.report f r k).applied = some (f.receive r.offset) ∧ (l.report f r k).moving = (r.motion != 0) ∧
      (l.report f r k).state = (if r.state = 0 then .producing else if r.state = 1 then .standby else .fault) ∧
      (l.report f r k).age = 0 ∧ (l.report f r k).fault = (r.state != 0 && r.state != 1) := by
  refine ⟨rfl, rfl, rfl, rfl, ?_⟩
  simp only [Live.report, TurbineState.ofReport]
  by_cases h0 : r.state = 0
  · simp [h0]
  · by_cases h1 : r.state = 1
    · simp [h1]
    · rw [if_neg h0, if_neg h1]
      simp only [bne_iff_ne.2 h0, bne_iff_ne.2 h1]
      rfl

/-- What a report leaves of STALLED (R11). -/
theorem Live.report_stalled (l : Live) (f : Format) (r : ReportBody) (k : Nat) :
    (l.report f r k).stalled = (l.stalled && !(r.motion == 0 &&
      match l.target with
      | some g => decide ((f.receive r.offset - g).natAbs ≤ k)
      | none => false)) := by
  simp only [Live.report, Live.settledAtTarget]
  cases l.target with
  | none => simp
  | some g => simp [Live.settledAt, bne]

/-- The state with a report written into the records of its node (R7, R8, R11), before anything follows from it. -/
def State.tapped (s : State) (n : Nat) (r : ReportBody) : State :=
  { s with turbines := s.turbines.map fun x =>
      if x.node = n then { x with live := x.live.report x.config.format r s.params.tolerance } else x }

/-- A tapped report of a node without an entry writes nothing. -/
theorem State.tapped_absent {s : State} {n : Nat} {r : ReportBody} (h : s.turbine? n = none) : s.tapped n r = s := by
  have hid : ∀ x ∈ s.turbines,
      (if x.node = n then { x with live := x.live.report x.config.format r s.params.tolerance } else x) = x := fun x hx =>
    if_neg (State.turbine?_none h x hx)
  rw [State.tapped, List.map_congr_left hid, List.map_id']

/-- A tapped report of a node with an entry writes that entry's record alone. -/
theorem State.tapped_present {s : State} (hn : (s.turbines.map fun x => x.node).Nodup) {t : Turbine} (ht : t ∈ s.turbines)
    (r : ReportBody) :
    (s.updLive t.node fun _ => t.live.report t.config.format r s.params.tolerance) = s.tapped t.node r := by
  simp only [State.updLive, State.tapped]
  congr 1
  refine List.map_congr_left fun x hx => ?_
  split
  · rename_i e; rw [List.inj_on_of_nodup_map hn hx ht e]
  · rfl

/-- What follows a report is propagation from the records that it wrote. -/
theorem Propagates.tapRecord {R : State → State → Prop} (h : Propagates R) {s : State}
    (hn : (s.turbines.map fun x => x.node).Nodup) (n : Nat) (r : ReportBody) : R (s.tapped n r) (s.tapRecord n r) := by
  unfold State.tapRecord
  split
  · rename_i h0; rw [State.tapped_absent h0]; exact h.refl s
  · rename_i t ht
    obtain ⟨hm, rfl⟩ := State.turbine?_mem ht
    dsimp only
    rw [State.tapped_present hn hm]
    exact h.trans (h.arbiterReport _ _) (h.settle _)

/-- What follows a report touches no STALLED flag. -/
theorem stalls_tapRecord {s : State} (hn : (s.turbines.map fun x => x.node).Nodup) (n : Nat) (r : ReportBody) :
    (s.tapRecord n r).stalls = (s.tapped n r).stalls := by
  unfold State.tapRecord
  split
  · rename_i h0; rw [State.tapped_absent h0]
  · rename_i t ht
    obtain ⟨hm, rfl⟩ := State.turbine?_mem ht
    dsimp only
    rw [State.tapped_present hn hm, stalls_settle, stalls_arbiterReport]

/-- The records that a report wrote, as its bytes give them (R8). -/
theorem tapped_reported (s : State) (n : Nat) (r : ReportBody) :
    (s.tapped n r).turbines.map Turbine.reported = s.turbines.map fun x =>
      if x.node = n then
        (x.node, x.config, some (x.config.format.receive r.offset), r.motion != 0,
          (if r.state = 0 then TurbineState.producing else if r.state = 1 then .standby else .fault), 0,
          r.state != 0 && r.state != 1)
      else x.reported := by
  simp only [State.tapped, List.map_map]
  refine List.map_congr_left fun x _ => ?_
  simp only [Function.comp]
  split
  · obtain ⟨h1, h2, h3, h4, h5⟩ := x.live.report_written x.config.format r s.params.tolerance
    simp only [Turbine.reported, h1, h2, h3, h4, h5]
  · rfl

/-- The STALLED flags that a report leaves (R11). -/
theorem tapped_stalls (s : State) (n : Nat) (r : ReportBody) :
    (s.tapped n r).stalls = s.turbines.map fun x =>
      (x.node, x.live.stalled && !(x.node == n && r.motion == 0 &&
        match x.live.target with
        | some g => decide ((x.config.format.receive r.offset - g).natAbs ≤ s.params.tolerance)
        | none => false)) := by
  simp only [State.tapped, State.stalls, List.map_map]
  refine List.map_congr_left fun x _ => ?_
  simp only [Function.comp]
  by_cases e : x.node = n
  · simp only [if_pos e, Live.report_stalled, beq_iff_eq.2 e, Bool.true_and]
  · simp [e]

/-- A REPORT frame offered to the observation unit and the turbine table changes nothing else, but for what follows from it. -/
structure Tapped (s : State) (a : Addr) (r : ReportBody) (t : State) : Prop where
  reported : t.turbines.map Turbine.reported = (s.tapped a.src.toNat r).turbines.map Turbine.reported
  stalls : t.stalls = (s.tapped a.src.toNat r).stalls
  sources : t.sources = s.sources.map fun x =>
    if x.kind = .nacelle ∧ x.node = a.src.toNat ∧ r.state = 0 ∧ r.direction.toNat < 3600 then
      { x with reading := some (min 600 r.speed.toNat, r.direction.toNat), age := 0 }
    else x
  queueU : ∃ rest, t.queueU = s.queueU ++ rest ∧ ∀ f ∈ rest, f.own = true
  quiet : t.quiet = s.quiet
  steady : Steady { s with turbines := t.turbines, sources := t.sources } t

/-- What the observation unit makes of a REPORT frame (R24). -/
theorem observe_report (s : State) (a : Addr) (r : ReportBody) :
    (if r.state = 0 then s.observe .nacelle a.src.toNat r.speed.toNat r.direction.toNat else s) =
      { s with sources := s.sources.map fun x =>
          if x.kind = .nacelle ∧ x.node = a.src.toNat ∧ r.state = 0 ∧ r.direction.toNat < 3600 then
            { x with reading := some (min 600 r.speed.toNat, r.direction.toNat), age := 0 }
          else x } := by
  by_cases h0 : r.state = 0
  · simp [h0, State.observe]
  · rw [if_neg h0]
    simp only [h0, false_and, and_false, if_false, List.map_id']

theorem State.tapReport_tapped {s : State} (hn : (s.turbines.map fun x => x.node).Nodup) (a : Addr) (r : ReportBody) :
    Tapped s a r (s.tapReport a r) := by
  unfold State.tapReport
  dsimp only
  rw [observe_report]
  set s1 : State := { s with sources := _ } with hs1
  have hn1 : (s1.turbines.map fun x => x.node).Nodup := hn
  have st := steady_propagates.tapRecord hn1 a.src.toNat r
  exact
    { reported := st.turbines
      stalls := stalls_tapRecord hn1 _ _
      sources := st.sources
      queueU := ownGrowth_propagates.tapRecord hn1 _ r
      quiet := quiet_propagates.tapRecord hn1 _ r
      steady := { st with turbines := rfl, sources := rfl } }

theorem countP_notOwn_append {q rest : List QueuedFrame} (h : ∀ f ∈ rest, f.own = true) :
    (q ++ rest).countP (fun f => !f.own) = q.countP fun f => !f.own := by
  have h0 : rest.countP (fun f => !f.own) = 0 := List.countP_eq_zero.2 fun f hf => by simp [h f hf]
  rw [List.countP_append, h0, Nat.add_zero]

/-- Forwarding on D changes U's queue and the port's counters. -/
theorem State.forward_d (s : State) (f : EthFrame) :
    s.forward .d f = { s with
      queueU := if s.queueU.countP (fun x => !x.own) < 28 then s.queueU ++ [⟨false, f⟩] else s.queueU
      countersD := if s.queueU.countP (fun x => !x.own) < 28 then
          { s.countersD with forwarded := s.countersD.forwarded + 1 }
        else { s.countersD with dropped := s.countersD.dropped + 1 } } := by
  unfold State.forward forwardedFrames
  dsimp only
  by_cases c : s.queueU.countP (fun x => !x.own) < 28
  · simp only [if_pos c]
  · simp only [if_neg c]

/-- What a REPORT frame on D leaves, in either order of its forwarding and its tap (R164, R166). -/
structure Reported (s : State) (f : EthFrame) (a : Addr) (r : ReportBody) (t : State) : Prop where
  reported : t.turbines.map Turbine.reported = (s.tapped a.src.toNat r).turbines.map Turbine.reported
  stalls : t.stalls = (s.tapped a.src.toNat r).stalls
  sources : t.sources = s.sources.map fun x =>
    if x.kind = .nacelle ∧ x.node = a.src.toNat ∧ r.state = 0 ∧ r.direction.toNat < 3600 then
      { x with reading := some (min 600 r.speed.toNat, r.direction.toNat), age := 0 }
    else x
  countersD : t.countersD = if s.queueU.countP (fun f => !f.own) < 28 then
      { s.countersD with forwarded := s.countersD.forwarded + 1 }
    else { s.countersD with dropped := s.countersD.dropped + 1 }
  placed : s.queueU.countP (fun f => !f.own) < 28 → ⟨false, f⟩ ∈ t.queueU
  quiet : t.quiet = s.quiet
  steady : Steady { s with turbines := t.turbines, sources := t.sources, countersD := t.countersD } t

/-- The frame is forwarded and then tapped. -/
theorem reported_of_forwarded {s t : State} {f : EthFrame} {a : Addr} {r : ReportBody} (h : Tapped (s.forward .d f) a r t) :
    Reported s f a r t := by
  rw [State.forward_d] at h
  obtain ⟨rest, hq, -⟩ := h.queueU
  exact
    { reported := h.reported
      stalls := h.stalls
      sources := h.sources
      countersD := h.steady.countersD
      placed := fun c => by rw [hq]; simp [c]
      quiet := h.quiet
      steady := { h.steady with countersD := rfl } }

/-- The frame is tapped and then forwarded. -/
theorem reported_of_tapped {s u : State} {f : EthFrame} {a : Addr} {r : ReportBody} (h : Tapped s a r u) :
    Reported s f a r (u.forward .d f) := by
  obtain ⟨rest, hq, own⟩ := h.queueU
  have hc : u.queueU.countP (fun f => !f.own) = s.queueU.countP fun f => !f.own := by rw [hq, countP_notOwn_append own]
  have hd : u.countersD = s.countersD := h.steady.countersD
  rw [State.forward_d]
  exact
    { reported := h.reported
      stalls := h.stalls
      sources := h.sources
      countersD := by simp only [hc, hd]
      placed := fun c => by simp [hc, c]
      quiet := h.quiet
      steady := { h.steady with countersD := rfl } }

theorem State.reportOnD_reported {s : State} (hn : (s.turbines.map fun x => x.node).Nodup) (f : EthFrame) (a : Addr)
    (r : ReportBody) : ∃ s1 : State, (∃ d, s1 = { s with draws := d }) ∧ Reported s1 f a r (s.reportOnD f a r) := by
  refine ⟨{ s with draws := s.draws + 1 }, ⟨_, rfl⟩, ?_⟩
  unfold State.reportOnD
  dsimp only
  split
  · refine reported_of_forwarded (State.tapReport_tapped ?_ a r)
    rw [State.forward_d]
    exact hn
  · exact reported_of_tapped (State.tapReport_tapped (s := { s with draws := s.draws + 1 }) hn a r)

/-- Settles O26: a report writes its own record and source; what follows from it is propagation, which touches no reported field and no
STALLED flag and only appends own frames to U's queue. -/
theorem reportUpdatesRecord : Obligations.ReportUpdatesRecord := by
  intro s a r ht hn
  have hx : exec (.reportFrame a r) s =
      .next (s.reportOnD (controlFrame s.params.controlType 2 a (reportBytes r)) a r) := by
    simp only [exec, execReportFrame, State.receiveAs, takes_carries ht, if_true, State.heard_d, State.arrive]
  obtain ⟨s1, ⟨d, rfl⟩, h⟩ := s.reportOnD_reported hn (controlFrame s.params.controlType 2 a (reportBytes r)) a r
  exact ⟨_, hx, h.reported.trans (tapped_reported _ _ _), h.stalls.trans (tapped_stalls _ _ _), h.sources, h.countersD, h.placed,
    h.quiet, { h.steady with }⟩

end Sys2Proof.Machine

/-!
The release arbiter's bookkeeping, seen through the accounts of the steps: each step that turbines can be owned by has a phase and two
numbers, what it needed and what it has counted. The wave queue's own order is a matter of the records' shapes.
-/

namespace Sys2Proof.Machine

/-! ### Lookups in a well-formed wave queue -/

theorem WavesOk.nums_nodup {s : State} (h : WavesOk s) : (s.waves.map fun w => w.num).Nodup := h.2.2.2.1

theorem WavesOk.rows_nodup {s : State} (h : WavesOk s) {w : Wave} (hw : w ∈ s.waves) : (w.steps.map fun st => st.row).Nodup :=
  (h.2.2.2.2.2.2 w hw).1

/-- An entry of a list is the one found at its key, where no key stands twice. -/
theorem find?_key_of_mem {α : Type} {key : α → Nat} {l : List α} (hn : (l.map key).Nodup) {a : α} (ha : a ∈ l) :
    l.find? (fun x => key x == key a) = some a := by
  cases h : l.find? fun x => key x == key a with
  | none => exact absurd (List.find?_eq_none.1 h a ha) (by simp)
  | some b =>
    have hb : key b = key a := by simpa using List.find?_some h
    rw [List.inj_on_of_nodup_map hn (List.mem_of_find?_eq_some h) ha hb]

theorem WavesOk.wave?_of_mem {s : State} (h : WavesOk s) {w : Wave} (hw : w ∈ s.waves) : s.wave? w.num = some w :=
  find?_key_of_mem h.nums_nodup hw

theorem WavesOk.step?_of_mem {s : State} (h : WavesOk s) {w : Wave} (hw : w ∈ s.waves) {st : WaveStep} (hst : st ∈ w.steps) :
    s.step? w.num st.row = some st := by
  rw [State.step?, h.wave?_of_mem hw]
  exact find?_key_of_mem (h.rows_nodup hw) hst

/-- A change of one step that keeps its row is found at that step alone. -/
theorem State.step?_updStep (s : State) (n r m q : Nat) {g : WaveStep → WaveStep} (hg : ∀ x, (g x).row = x.row) :
    (s.updStep n r g).step? m q = if m = n ∧ q = r then (s.step? m q).map g else s.step? m q := by
  rw [State.step?, State.updStep, State.wave?_updWave s n m (fun w => w.updStep r g) fun _ => rfl, State.step?]
  cases hw : s.wave? m with
  | none => simp
  | some w =>
    obtain ⟨-, rfl⟩ := State.wave?_mem hw
    simp only [Option.map_some, Option.bind_some]
    by_cases hn : w.num = n
    · rw [if_pos hn, Wave.step?_updStep w r q g hg]
      cases hs : w.step? q with
      | none => simp
      | some st =>
        obtain ⟨-, rfl⟩ := Wave.step?_mem hs
        by_cases hr : st.row = r <;> simp [hn, hr]
    · simp [hn]

/-- A change of one neutral step that keeps its row is found at that row alone. -/
theorem State.neutralStep?_updNeutral (s : State) (r q : Nat) {g : NeutralStep → NeutralStep} (hg : ∀ x, (g x).row = x.row) :
    (s.updNeutral r g).neutralStep? q = if q = r then (s.neutralStep? q).map g else s.neutralStep? q := by
  have h : (s.updNeutral r g).neutralStep? q = (s.neutralStep? q).map fun x => if x.row = r then g x else x :=
    find?_map_key (fun x : NeutralStep => x.row) _ (fun x => by split <;> simp [hg]) q s.neutral.steps
  rw [h]
  cases hs : s.neutralStep? q with
  | none => simp
  | some k =>
    have hk : k.row = q := by simpa using List.find?_some hs
    by_cases e : q = r <;> simp [hk, e]

/-! ### Shapes -/

/-- What of a wave record the order of the wave queue is about: its number, its state and the rows of its steps. -/
def Wave.shape (w : Wave) : Nat × Bool × List Nat := (w.num, w.running, w.steps.map fun st => st.row)

/-- Wave records have left the queue at most. -/
def Shaped (s t : State) : Prop := (t.waves.map Wave.shape).Sublist (s.waves.map Wave.shape)

theorem sublist_dropLast {α : Type} {l m : List α} (h : l.Sublist m) : l.dropLast.Sublist m.dropLast := by
  have := h.reverse.tail.reverse
  rwa [List.tail_reverse, List.tail_reverse, List.reverse_reverse, List.reverse_reverse] at this

/-- The wave queue is well formed, said of its records' shapes. -/
theorem wavesOk_iff {s : State} : WavesOk s ↔ PlansOk s ∧ s.waveCounter ≤ 255 ∧
    (s.waves.map Wave.shape).length ≤ 4 ∧ ((s.waves.map Wave.shape).map Prod.fst).Nodup ∧
    (∀ x ∈ s.waves.map Wave.shape, x.1 ≤ 255) ∧ (∀ x ∈ (s.waves.map Wave.shape).dropLast, x.2.1 = true) ∧
    ∀ x ∈ s.waves.map Wave.shape, x.2.2.Nodup ∧ (∀ r ∈ x.2.2, r ≤ 15) ∧ (x.2.1 = false → x.2.2 = []) := by
  simp [WavesOk, Wave.shape, ← List.map_dropLast, Function.comp_def]

/-- A wave queue that records have left at most stays well formed. -/
theorem wavesOk_of_shaped {s t : State} (h : WavesOk s) (hp : t.plans = s.plans) (hc : t.waveCounter = s.waveCounter)
    (hs : Shaped s t) : WavesOk t := by
  rw [wavesOk_iff] at h ⊢
  obtain ⟨h1, h2, h3, h4, h5, h6, h7⟩ := h
  exact ⟨by rw [PlansOk, hp]; exact h1, hc ▸ h2, hs.length_le.trans h3, h4.sublist (hs.map _), fun x hx => h5 x (hs.subset hx),
    fun x hx => h6 x ((sublist_dropLast hs).subset hx), fun x hx => h7 x (hs.subset hx)⟩

theorem Shaped.refl (s : State) : Shaped s s := List.Sublist.refl _

theorem Shaped.trans {s t u : State} (a : Shaped s t) (b : Shaped t u) : Shaped s u := List.Sublist.trans b a

theorem Shaped.of_waves {s t : State} (h : t.waves = s.waves) : Shaped s t := by rw [Shaped, h]

theorem shape_updStep (w : Wave) (r : Nat) {g : WaveStep → WaveStep} (hg : ∀ x, (g x).row = x.row) :
    (w.updStep r g).shape = w.shape := by
  simp only [Wave.shape, Wave.updStep, List.map_map]
  congr 2
  refine List.map_congr_left fun x _ => ?_
  simp only [Function.comp]
  split
  · exact hg x
  · rfl

theorem Shaped.updWave (s : State) (n : Nat) {g : Wave → Wave} (hg : ∀ w, (g w).shape = w.shape) : Shaped s (s.updWave n g) := by
  have e : (s.updWave n g).waves.map Wave.shape = s.waves.map Wave.shape := by
    simp only [State.updWave, List.map_map]
    refine List.map_congr_left fun w _ => ?_
    simp only [Function.comp]
    split
    · exact hg w
    · rfl
  rw [Shaped, e]

theorem Shaped.updStep (s : State) (n r : Nat) {g : WaveStep → WaveStep} (hg : ∀ x, (g x).row = x.row) :
    Shaped s (s.updStep n r g) := Shaped.updWave s n fun w => shape_updStep w r hg

theorem Shaped.filter (s : State) (p : Wave → Bool) : Shaped s { s with waves := s.waves.filter p } :=
  List.filter_sublist.map _

/-! ### Accounts -/

/-- The phases of a step that the bookkeeping of owners tells apart: a step can own turbines while it is RELEASING or MOVING. -/
inductive Phase where
  | unreleased | releasing | moving | ended
  deriving DecidableEq

/-- The account of a step: its phase, the members it needed and those that it has counted. -/
structure Account where
  phase : Phase
  needed : Nat
  counted : Nat

def StepState.phase : StepState → Phase
  | .waiting | .holding => .unreleased
  | .releasing => .releasing
  | .moving => .moving
  | .empty | .done | .skipped | .cancelled => .ended

def NeutralState.phase : NeutralState → Phase
  | .releasing => .releasing
  | .moving => .moving
  | .done => .ended

def WaveStep.account (st : WaveStep) : Account :=
  ⟨st.state.phase, st.needed, st.settled + st.stalled + st.faulted + st.superseded + st.cancelled⟩

def NeutralStep.account (k : NeutralStep) : Account := ⟨k.state.phase, k.needed, k.settled + k.stalled + k.faulted + k.cancelled⟩

/-- The account that stands at an owner's name. -/
def State.account (s : State) : Owner → Option Account
  | .low n r => (s.step? n r).map WaveStep.account
  | .neutral r => (s.neutralStep? r).map NeutralStep.account

/-- The row of an owner's step. -/
def Owner.row : Owner → Nat
  | .low _ r => r
  | .neutral r => r

/-- The account is of a step in RELEASING or MOVING. -/
def Busy (a : Option Account) : Prop := ∃ x ∈ a, x.phase = .releasing ∨ x.phase = .moving

/-- The account is of a terminal step, or there is none. -/
def Ended (a : Option Account) : Prop := ∀ x ∈ a, x.phase = .ended

/-- What an account needed it has counted. -/
def Balanced (a : Option Account) : Prop := ∀ x ∈ a, x.phase = .ended ∨ x.needed = x.counted

theorem phase_ended_iff (x : StepState) : x.phase = .ended ↔ x.terminal = true := by cases x <;> simp [StepState.phase, StepState.terminal]

theorem phase_active_iff (x : StepState) : x.phase = .releasing ∨ x.phase = .moving ↔ x.active := by
  cases x <;> simp [StepState.phase, StepState.active]

theorem phase_unreleased_iff (x : StepState) : x.phase = .unreleased ↔ x.unreleased := by
  cases x <;> simp [StepState.phase, StepState.unreleased]

theorem neutral_phase_ended_iff (x : NeutralState) : x.phase = .ended ↔ x = .done := by cases x <;> simp [NeutralState.phase]

theorem Ended.not_busy {a : Option Account} (h : Ended a) : ¬Busy a := by
  rintro ⟨x, hx, hp⟩
  have := h x hx
  rcases hp with hp | hp <;> simp [hp] at this

/-- One account is revised. -/
def revise (o : Owner) (f : Account → Account) (acc : Owner → Option Account) (p : Owner) : Option Account :=
  if p = o then (acc p).map f else acc p

theorem account_updStep (s : State) (n r : Nat) {g : WaveStep → WaveStep} (hg : ∀ x, (g x).row = x.row) {f : Account → Account}
    (hf : ∀ st, s.step? n r = some st → (g st).account = f st.account) :
    (s.updStep n r g).account = revise (.low n r) f s.account := by
  funext o
  cases o with
  | neutral q => rfl
  | low m q =>
    simp only [State.account, revise, State.step?_updStep s n r m q hg, Owner.low.injEq]
    by_cases h : m = n ∧ q = r
    · obtain ⟨rfl, rfl⟩ := h
      cases hs : s.step? m q with
      | none => simp
      | some st => simp [hf st hs]
    · simp [h]

theorem account_updNeutral (s : State) (r : Nat) {g : NeutralStep → NeutralStep} (hg : ∀ x, (g x).row = x.row)
    {f : Account → Account} (hf : ∀ k, s.neutralStep? r = some k → (g k).account = f k.account) :
    (s.updNeutral r g).account = revise (.neutral r) f s.account := by
  funext o
  cases o with
  | low m q => rfl
  | neutral q =>
    simp only [State.account, revise, State.neutralStep?_updNeutral s r q hg, Owner.neutral.injEq]
    by_cases h : q = r
    · subst h
      cases hs : s.neutralStep? q with
      | none => simp
      | some k => simp [hf k hs]
    · simp [h]

/-- The accounts are those of the waves and the neutral context. -/
theorem account_congr {s t : State} (hw : t.waves = s.waves) (hn : t.neutral = s.neutral) : t.account = s.account := by
  funext o
  cases o <;> simp only [State.account, State.step?, State.wave?, State.neutralStep?, hw, hn]

/-- A change of a step that leaves its account leaves all accounts. -/
theorem account_updStep_same (s : State) (n r : Nat) {g : WaveStep → WaveStep} (hg : ∀ x, (g x).row = x.row)
    (hf : ∀ st, s.step? n r = some st → (g st).account = st.account) : (s.updStep n r g).account = s.account := by
  rw [account_updStep s n r hg (f := id) hf]
  funext o
  simp [revise]

end Sys2Proof.Machine

/-!
The books of the release arbiter over accounts, a turbine table and the arbiter's lists and slots: what keeps them, said without a state. An
operation changes accounts that own nothing (`Books.accounts`) or one turbine's record together with the accounts that count it
(`Books.change`).
-/

namespace Sys2Proof.Machine

/-- The request lists, the retarget list and the slots. -/
structure Desk where
  high : List Nat
  low : List Nat
  retargets : List Nat
  lowSlots : Nat
  highSlots : Nat

def State.desk (s : State) : Desk := ⟨s.high, s.low, s.retargets, s.lowSlots, s.highSlots⟩

/-- The turbines of a table that an owner has. -/
def ownedIn (T : List Turbine) (o : Owner) : Nat := T.countP fun x => x.live.owner == some o

def Turbine.retargeting (x : Turbine) : Bool := x.live.move == .retarget

/-- A list names each turbine of a table with a property once, and nothing else. -/
def Named (T : List Turbine) (list : List Nat) (waits : Turbine → Bool) : Prop :=
  list.Nodup ∧ (∀ n ∈ list, ∃ x ∈ T, x.node = n ∧ waits x = true) ∧ ∀ x ∈ T, waits x = true → x.node ∈ list

/-- The account stands behind a turbine with a move state. -/
def Backs (a : Option Account) (m : MoveState) : Prop :=
  ∃ x, a = some x ∧ (x.phase = .releasing ∨ (x.phase = .moving ∧ m ≠ .queued))

/-- The bookkeeping of the release arbiter. -/
structure Books (acc : Owner → Option Account) (T : List Turbine) (d : Desk) : Prop where
  handled : ∀ x ∈ T, x.handled
  owners : ∀ x ∈ T, ∀ o, x.live.owner = some o → o.row = x.config.row ∧ Backs (acc o) x.live.move
  counts : ∀ o a, acc o = some a → a.phase ≠ .ended → a.needed = a.counted + ownedIn T o
  lowSlots : d.lowSlots = T.countP fun x => x.live.slot == some .low
  highSlots : d.highSlots = T.countP fun x => x.live.slot == some .high
  low : Named T d.low Turbine.waitsLow
  high : Named T d.high Turbine.waitsHigh
  retargets : Named T d.retargets Turbine.retargeting

theorem Backs.busy {a : Option Account} {m : MoveState} (h : Backs a m) : Busy a := by
  obtain ⟨x, rfl, hp⟩ := h
  exact ⟨x, rfl, hp.imp id And.left⟩

theorem ownedIn_eq_zero {T : List Turbine} {o : Owner} : ownedIn T o = 0 ↔ ∀ x ∈ T, x.live.owner ≠ some o := by
  simp [ownedIn, List.countP_eq_zero]

/-- What a change of accounts alone may do to one of them: nothing; anything balanced, where it owns no turbine; RELEASING to MOVING, where
none of its turbines is queued; or members needed and counted at once. -/
inductive Changes (T : List Turbine) (o : Owner) (a a' : Option Account) : Prop
  | same (h : a' = a)
  | unowned (h : ownedIn T o = 0) (b : Balanced a')
  | moving (x : Account) (h : a = some x) (hp : x.phase = .releasing) (h' : a' = some { x with phase := .moving })
    (hq : ∀ y ∈ T, y.live.owner = some o → y.live.move ≠ .queued)
  | atOnce (x : Account) (k : Nat) (h : a = some x) (h' : a' = some { x with needed := x.needed + k, counted := x.counted + k })

namespace Books

variable {acc : Owner → Option Account} {T : List Turbine} {d : Desk} (h : Books acc T d)
include h

/-- An account that is not of a step in RELEASING or MOVING owns nothing. -/
theorem unowned {o : Owner} (ho : ¬Busy (acc o)) : ownedIn T o = 0 :=
  ownedIn_eq_zero.2 fun x hx e => ho (h.owners x hx o e).2.busy

theorem accounts {acc' : Owner → Option Account} (hc : ∀ o, Changes T o (acc o) (acc' o)) : Books acc' T d where
  handled := h.handled
  owners x hx o e := by
    obtain ⟨hr, hb⟩ := h.owners x hx o e
    refine ⟨hr, ?_⟩
    cases hc o with
    | same hs => rwa [hs]
    | unowned hu _ => exact absurd e (ownedIn_eq_zero.1 hu x hx)
    | moving y _ _ hy hq => exact ⟨_, hy, .inr ⟨rfl, hq x hx e⟩⟩
    | atOnce y k hy hy' =>
      obtain ⟨z, hz, hp⟩ := hb
      cases hy.symm.trans hz
      exact ⟨_, hy', hp⟩
  counts o a ha hp := by
    cases hc o with
    | same hs => exact h.counts o a (hs ▸ ha) hp
    | unowned hu hb => rw [hu, (hb a ha).resolve_left hp, Nat.add_zero]
    | moving y hy hyp hy' _ =>
      cases hy'.symm.trans ha
      exact h.counts o y hy (by simp [hyp])
    | atOnce y k hy hy' =>
      cases hy'.symm.trans ha
      have := h.counts o y hy hp
      simp only
      omega
  lowSlots := h.lowSlots
  highSlots := h.highSlots
  low := h.low
  high := h.high
  retargets := h.retargets

/-- A turbine without an owner is IDLE and holds no slot (R122). -/
theorem idle_of_unowned {x : Turbine} (hx : x ∈ T) (ho : x.live.owner = none) : x.live.move = .idle ∧ x.live.slot = none := by
  have hh := h.handled x hx
  unfold Turbine.handled at hh
  rw [ho] at hh
  cases hm : x.live.move <;> cases hs : x.live.slot <;> simp_all

end Books

/-! ### One turbine's record -/

/-- A table with the live record at a node changed. -/
def relive (n : Nat) (g : Live → Live) (T : List Turbine) : List Turbine :=
  T.map fun t => if t.node = n then { t with live := g t.live } else t

theorem State.updLive_turbines (s : State) (n : Nat) (g : Live → Live) : (s.updLive n g).turbines = relive n g s.turbines := rfl

theorem relive_map_node (n : Nat) (g : Live → Live) (T : List Turbine) : (relive n g T).map (fun t => t.node) = T.map fun t => t.node := by
  simp only [relive, List.map_map]
  refine List.map_congr_left fun t _ => ?_
  simp only [Function.comp]
  split <;> rfl

theorem relive_eq_self {n : Nat} {g : Live → Live} {T : List Turbine} (h : ∀ t ∈ T, t.node ≠ n) : relive n g T = T :=
  (List.map_congr_left fun t ht => if_neg (h t ht)).trans (List.map_id' T)

theorem mem_relive {n : Nat} {g : Live → Live} {T : List Turbine} {y : Turbine} (hy : y ∈ relive n g T) :
    (y ∈ T ∧ y.node ≠ n) ∨ ∃ x ∈ T, x.node = n ∧ y = { x with live := g x.live } := by
  obtain ⟨x, hx, rfl⟩ := List.mem_map.1 hy
  by_cases e : x.node = n
  · exact .inr ⟨x, hx, e, by simp [e]⟩
  · exact .inl ⟨by simpa [e] using hx, by simp [e]⟩

theorem relive_mem {n : Nat} {g : Live → Live} {T : List Turbine} {x : Turbine} (hx : x ∈ T) (e : x.node = n) :
    { x with live := g x.live } ∈ relive n g T := List.mem_map.2 ⟨x, hx, by simp [e]⟩

theorem relive_mem_of_ne {n : Nat} {g : Live → Live} {T : List Turbine} {x : Turbine} (hx : x ∈ T) (e : x.node ≠ n) :
    x ∈ relive n g T := List.mem_map.2 ⟨x, hx, by simp [e]⟩

/-- A count over a table with one record changed. -/
theorem countP_relive {T : List Turbine} (hn : (T.map fun t => t.node).Nodup) {x : Turbine} (hx : x ∈ T) (g : Live → Live)
    (p : Turbine → Bool) :
    (relive x.node g T).countP p + (p x).toNat = T.countP p + (p { x with live := g x.live }).toNat := by
  have htoNat : ∀ b : Bool, (if b = true then 1 else 0) = b.toNat := by decide
  induction T with
  | nil => cases hx
  | cons y T ih =>
    rw [List.map_cons, List.nodup_cons] at hn
    rcases List.mem_cons.1 hx with rfl | hx
    · have hT : relive x.node g T = T := relive_eq_self fun t ht e => hn.1 (e ▸ List.mem_map_of_mem ht)
      have e : relive x.node g (x :: T) = { x with live := g x.live } :: relive x.node g T := by simp [relive]
      rw [e, hT, List.countP_cons, List.countP_cons, htoNat, htoNat]
      omega
    · have hne : y.node ≠ x.node := fun e => hn.1 (e ▸ List.mem_map_of_mem hx)
      have e : relive x.node g (y :: T) = y :: relive x.node g T := by simp [relive, hne]
      have := ih hn.2 hx
      rw [e, List.countP_cons, List.countP_cons]
      omega

/-- A list with the standing of one entry changed. -/
def Restands (n : Nat) (b : Bool) (l l' : List Nat) : Prop := l'.Nodup ∧ ∀ m, m ∈ l' ↔ if m = n then b = true else m ∈ l

namespace Restands

theorem same {n : Nat} {b : Bool} {l : List Nat} (h : l.Nodup) (hb : n ∈ l ↔ b = true) : Restands n b l l :=
  ⟨h, fun m => by by_cases e : m = n <;> simp [e, hb]⟩

theorem append {n : Nat} {l : List Nat} (h : l.Nodup) (hb : n ∉ l) : Restands n true l (l ++ [n]) := by
  refine ⟨?_, fun m => ?_⟩
  · rw [List.nodup_append]
    refine ⟨h, by simp, fun a ha b hb' e => hb ?_⟩
    rw [← List.mem_singleton.1 hb', ← e]
    exact ha
  · by_cases e : m = n <;> simp [e]

theorem tail {n : Nat} {l : List Nat} (h : (n :: l).Nodup) : Restands n false (n :: l) l := by
  rw [List.nodup_cons] at h
  refine ⟨h.2, fun m => ?_⟩
  by_cases e : m = n
  · subst e; simp [h.1]
  · simp [e]

theorem filter {n : Nat} {l : List Nat} (h : l.Nodup) : Restands n false l (l.filter fun m => m != n) := by
  refine ⟨h.filter _, fun m => ?_⟩
  by_cases e : m = n <;> simp [e]

end Restands

theorem Named.mem_iff {T : List Turbine} (hn : (T.map fun t => t.node).Nodup) {l : List Nat} {waits : Turbine → Bool}
    (h : Named T l waits) {x : Turbine} (hx : x ∈ T) : x.node ∈ l ↔ waits x = true := by
  refine ⟨fun hm => ?_, h.2.2 x hx⟩
  obtain ⟨y, hy, e, hw⟩ := h.2.1 _ hm
  rwa [List.inj_on_of_nodup_map hn hy hx e] at hw

theorem Named.relive {T : List Turbine} (hn : (T.map fun t => t.node).Nodup) {l l' : List Nat} {waits : Turbine → Bool}
    (h : Named T l waits) {x : Turbine} (hx : x ∈ T) {g : Live → Live}
    (hr : Restands x.node (waits { x with live := g x.live }) l l') : Named (relive x.node g T) l' waits := by
  obtain ⟨nd, hm⟩ := hr
  refine ⟨nd, fun n hnl => ?_, fun y hy hw => ?_⟩
  · have := (hm n).1 hnl
    by_cases e : n = x.node
    · rw [if_pos e] at this
      exact ⟨_, relive_mem hx rfl, e.symm, this⟩
    · rw [if_neg e] at this
      obtain ⟨y, hy, rfl, hw⟩ := h.2.1 n this
      exact ⟨y, relive_mem_of_ne hy e, rfl, hw⟩
  · rw [hm]
    rcases mem_relive hy with ⟨hy, e⟩ | ⟨z, hz, e, rfl⟩
    · rw [if_neg e]
      exact h.2.2 y hy hw
    · obtain rfl := List.inj_on_of_nodup_map hn hz hx e
      rw [if_pos rfl]
      exact hw

/-- The accounts count a turbine's change of owner: the phases stand, and what an account needs beyond what it has counted follows the
turbines it owns. -/
def Transfers (acc acc' : Owner → Option Account) (a b : Option Owner) : Prop :=
  ∀ o, ((acc' o).map fun x => x.phase) = ((acc o).map fun x => x.phase) ∧
    ∀ x ∈ acc o, ∀ y ∈ acc' o, x.phase ≠ .ended →
      y.needed + x.counted + (a == some o).toNat = x.needed + y.counted + (b == some o).toNat

theorem Transfers.refl (acc : Owner → Option Account) (a : Option Owner) : Transfers acc acc a a := fun o =>
  ⟨rfl, fun x hx y hy _ => by
    cases (Option.mem_def.1 hx).symm.trans (Option.mem_def.1 hy)
    omega⟩

theorem Transfers.backs {acc acc' : Owner → Option Account} {a b : Option Owner} (h : Transfers acc acc' a b) {o : Owner} {m : MoveState}
    (hb : Backs (acc o) m) : Backs (acc' o) m := by
  obtain ⟨x, hx, hp⟩ := hb
  have := (h o).1
  rw [hx] at this
  obtain ⟨y, hy, e⟩ := Option.map_eq_some_iff.1 this
  exact ⟨y, hy, by rwa [e]⟩

/-- One turbine's record changes, with the accounts, lists and slots that follow it. -/
theorem Books.change {acc acc' : Owner → Option Account} {T : List Turbine} {d d' : Desk} (h : Books acc T d)
    (hn : (T.map fun t => t.node).Nodup) {x : Turbine} (hx : x ∈ T) {g : Live → Live}
    (handled : Turbine.handled { x with live := g x.live }) (transfers : Transfers acc acc' x.live.owner (g x.live).owner)
    (owner : ∀ o, (g x.live).owner = some o → o.row = x.config.row ∧ Backs (acc o) (g x.live).move)
    (lowSlots : d'.lowSlots + (x.live.slot == some .low).toNat = d.lowSlots + ((g x.live).slot == some .low).toNat)
    (highSlots : d'.highSlots + (x.live.slot == some .high).toNat = d.highSlots + ((g x.live).slot == some .high).toNat)
    (low : Restands x.node (Turbine.waitsLow { x with live := g x.live }) d.low d'.low)
    (high : Restands x.node (Turbine.waitsHigh { x with live := g x.live }) d.high d'.high)
    (retargets : Restands x.node (Turbine.retargeting { x with live := g x.live }) d.retargets d'.retargets) :
    Books acc' (relive x.node g T) d' where
  handled y hy := by
    rcases mem_relive hy with ⟨hy, -⟩ | ⟨z, hz, e, rfl⟩
    · exact h.handled y hy
    · obtain rfl := List.inj_on_of_nodup_map hn hz hx e
      exact handled
  owners y hy o ho := by
    rcases mem_relive hy with ⟨hy, -⟩ | ⟨z, hz, e, rfl⟩
    · exact (h.owners y hy o ho).imp id transfers.backs
    · obtain rfl := List.inj_on_of_nodup_map hn hz hx e
      exact (owner o ho).imp id transfers.backs
  counts o a ha hp := by
    obtain ⟨hph, hcount⟩ := transfers o
    rw [ha] at hph
    obtain ⟨b, hb, e⟩ := Option.map_eq_some_iff.1 hph.symm
    have h1 := hcount b hb a ha (by rwa [e])
    have h2 := h.counts o b hb (by rwa [e])
    have h3 := countP_relive hn hx g fun y => y.live.owner == some o
    simp only [ownedIn] at h2 ⊢
    simp only at h3
    omega
  lowSlots := by
    have h3 := countP_relive hn hx g fun y => y.live.slot == some .low
    have := h.lowSlots
    simp only at h3
    omega
  highSlots := by
    have h3 := countP_relive hn hx g fun y => y.live.slot == some .high
    have := h.highSlots
    simp only at h3
    omega
  low := h.low.relive hn hx low
  high := h.high.relive hn hx high
  retargets := h.retargets.relive hn hx retargets

end Sys2Proof.Machine

/-!
`ArbiterOk` through accounts: `Sound` is the table, the wave queue, the order of busy steps, the books and the mode's clauses, and every
operation is shown to keep it part by part.
-/

namespace Sys2Proof.Machine

/-! ### Accounts and the lists that they stand in -/

theorem State.neutralStep?_mem {s : State} {r : Nat} {k : NeutralStep} (h : s.neutralStep? r = some k) :
    k ∈ s.neutral.steps ∧ k.row = r := ⟨List.mem_of_find?_eq_some h, by simpa using List.find?_some h⟩

theorem account_low_eq_some {s : State} (h : WavesOk s) {n r : Nat} {a : Account} :
    s.account (.low n r) = some a ↔ ∃ w ∈ s.waves, w.num = n ∧ ∃ st ∈ w.steps, st.row = r ∧ st.account = a := by
  simp only [State.account, Option.map_eq_some_iff]
  constructor
  · rintro ⟨st, hst, rfl⟩
    obtain ⟨w, hw, hn, hm, hr⟩ := State.step?_mem hst
    exact ⟨w, hw, hn, st, hm, hr, rfl⟩
  · rintro ⟨w, hw, rfl, st, hst, rfl, rfl⟩
    exact ⟨st, h.step?_of_mem hw hst, rfl⟩

theorem account_neutral_eq_some {s : State} (h : (s.neutral.steps.map fun k => k.row).Nodup) {r : Nat} {a : Account} :
    s.account (.neutral r) = some a ↔ ∃ k ∈ s.neutral.steps, k.row = r ∧ k.account = a := by
  simp only [State.account, Option.map_eq_some_iff]
  constructor
  · rintro ⟨k, hk, rfl⟩
    obtain ⟨hm, hr⟩ := State.neutralStep?_mem hk
    exact ⟨k, hm, hr, rfl⟩
  · rintro ⟨k, hk, rfl, rfl⟩
    exact ⟨k, find?_key_of_mem h hk, rfl⟩

section
variable {s : State} (h : WavesOk s) {w : Wave} (hw : w ∈ s.waves)
include h hw

theorem account_of_step {st : WaveStep} (hst : st ∈ w.steps) : s.account (.low w.num st.row) = some st.account := by
  rw [State.account, h.step?_of_mem hw hst]; rfl

theorem busy_low_iff {r : Nat} : Busy (s.account (.low w.num r)) ↔ ∃ st ∈ w.steps, st.row = r ∧ st.state.active := by
  constructor
  · rintro ⟨a, ha, hp⟩
    obtain ⟨w', hw', hn, st, hst, hr, rfl⟩ := (account_low_eq_some h).1 ha
    obtain rfl := List.inj_on_of_nodup_map h.nums_nodup hw' hw hn
    exact ⟨st, hst, hr, (phase_active_iff _).1 hp⟩
  · rintro ⟨st, hst, rfl, hp⟩
    exact ⟨_, account_of_step h hw hst, (phase_active_iff _).2 hp⟩

theorem ended_low_iff {r : Nat} : Ended (s.account (.low w.num r)) ↔ ∀ st ∈ w.steps, st.row = r → st.state.terminal = true := by
  constructor
  · rintro he st hst rfl
    exact (phase_ended_iff _).1 (he _ (account_of_step h hw hst))
  · intro ht a ha
    obtain ⟨w', hw', hn, st, hst, hr, rfl⟩ := (account_low_eq_some h).1 ha
    obtain rfl := List.inj_on_of_nodup_map h.nums_nodup hw' hw hn
    exact (phase_ended_iff _).2 (ht st hst hr)

end

theorem busy_neutral_iff {s : State} (h : (s.neutral.steps.map fun k => k.row).Nodup) {r : Nat} :
    Busy (s.account (.neutral r)) ↔ ∃ k ∈ s.neutral.steps, k.row = r ∧ k.state ≠ .done := by
  have hp : ∀ k : NeutralStep, (k.account.phase = .releasing ∨ k.account.phase = .moving) ↔ k.state ≠ .done := fun k => by
    cases hk : k.state <;> simp [NeutralStep.account, NeutralState.phase, hk]
  constructor
  · rintro ⟨a, ha, hb⟩
    obtain ⟨k, hk, hr, rfl⟩ := (account_neutral_eq_some h).1 ha
    exact ⟨k, hk, hr, (hp k).1 hb⟩
  · rintro ⟨k, hk, hr, hb⟩
    exact ⟨_, (account_neutral_eq_some h).2 ⟨k, hk, hr, rfl⟩, (hp k).2 hb⟩

/-! ### The invariant, part by part -/

/-- A busy step has no older wave's live step at its row (R83). -/
def Ordered (nums : List Nat) (acc : Owner → Option Account) : Prop :=
  nums.Pairwise fun o y => ∀ r, Busy (acc (.low y r)) → Ended (acc (.low o r))

/-- No row has a busy LOW step and a live neutral step (R83). -/
def Apart (acc : Owner → Option Account) : Prop := ∀ n r, Busy (acc (.neutral r)) → ¬Busy (acc (.low n r))

/-- At most one neutral step a row, in ascending row order (R151). -/
def NeutralRows (steps : List NeutralStep) : Prop := (steps.map fun k => k.row).Pairwise (· < ·) ∧ ∀ k ∈ steps, k.row ≤ 15

/-- The context is active while a step is not DONE, and is cleared when it is inactive (R151). -/
def Judged (n : Neutral) : Prop := (n.active = true → ∃ k ∈ n.steps, k.state ≠ .done) ∧ (n.active = false → n = ⟨false, none, []⟩)

/-- The part of the invariant that holds within an event too. -/
structure Core (s : State) : Prop where
  table : RowTableOk s
  waves : WavesOk s
  ordered : Ordered (s.waves.map fun w => w.num) s.account
  rows : NeutralRows s.neutral.steps
  books : Books s.account s.turbines s.desk

/-- The invariant but for the budget. -/
structure Sound (s : State) : Prop extends Core s where
  apart : Apart s.account
  judged : Judged s.neutral
  pass : s.mode = .pass → s.waves = [] ∧ s.neutral.active = false
  returning : s.mode = .returning → s.waves = []

theorem NeutralRows.nodup {l : List NeutralStep} (h : NeutralRows l) : (l.map fun k => k.row).Nodup := h.1.imp Nat.ne_of_lt

theorem ordered_iff {s : State} (h : WavesOk s) : Ordered (s.waves.map fun w => w.num) s.account ↔
    s.waves.Pairwise fun older younger => ∀ st ∈ younger.steps, st.state.active →
      ∀ o ∈ older.steps, o.row = st.row → o.state.terminal = true := by
  rw [Ordered, List.pairwise_map]
  refine List.Pairwise.iff_of_mem fun {o y} ho hy => ?_
  simp only [busy_low_iff h hy, ended_low_iff h ho]
  exact ⟨fun H st hst ha => H st.row ⟨st, hst, rfl, ha⟩, fun H r ⟨st, hst, hr, ha⟩ => hr ▸ H st hst ha⟩

theorem apart_iff {s : State} (h : WavesOk s) (hn : (s.neutral.steps.map fun k => k.row).Nodup) : Apart s.account ↔
    ∀ n ∈ s.neutral.steps, n.state ≠ .done → ∀ w ∈ s.waves, ∀ st ∈ w.steps, st.row = n.row → ¬st.state.active := by
  constructor
  · intro H k hk hd w hw st hst hr ha
    exact H w.num k.row ((busy_neutral_iff hn).2 ⟨k, hk, rfl, hd⟩) ((busy_low_iff h hw).2 ⟨st, hst, hr, ha⟩)
  · rintro H n r hb ⟨a, ha, hp⟩
    obtain ⟨k, hk, rfl, hd⟩ := (busy_neutral_iff hn).1 hb
    obtain ⟨w, hw, -, st, hst, hr, rfl⟩ := (account_low_eq_some h).1 ha
    exact H k hk hd w hw st hst hr ((phase_active_iff _).1 hp)

theorem backs_low_iff {s : State} (h : WavesOk s) {n r : Nat} {m : MoveState} : Backs (s.account (.low n r)) m ↔
    ∃ w ∈ s.waves, w.num = n ∧ ∃ st ∈ w.steps, st.row = r ∧ (st.state = .releasing ∨ (st.state = .moving ∧ m ≠ .queued)) := by
  have hp : ∀ st : WaveStep, (st.account.phase = .releasing ∨ (st.account.phase = .moving ∧ m ≠ .queued)) ↔
      (st.state = .releasing ∨ (st.state = .moving ∧ m ≠ .queued)) := fun st => by
    cases hs : st.state <;> simp [WaveStep.account, StepState.phase, hs]
  constructor
  · rintro ⟨a, ha, hb⟩
    obtain ⟨w, hw, hn, st, hst, hr, rfl⟩ := (account_low_eq_some h).1 ha
    exact ⟨w, hw, hn, st, hst, hr, (hp st).1 hb⟩
  · rintro ⟨w, hw, hn, st, hst, hr, hb⟩
    exact ⟨_, (account_low_eq_some h).2 ⟨w, hw, hn, st, hst, hr, rfl⟩, (hp st).2 hb⟩

theorem backs_neutral_iff {s : State} (h : (s.neutral.steps.map fun k => k.row).Nodup) {r : Nat} {m : MoveState} :
    Backs (s.account (.neutral r)) m ↔
      ∃ k ∈ s.neutral.steps, k.row = r ∧ (k.state = .releasing ∨ (k.state = .moving ∧ m ≠ .queued)) := by
  have hp : ∀ k : NeutralStep, (k.account.phase = .releasing ∨ (k.account.phase = .moving ∧ m ≠ .queued)) ↔
      (k.state = .releasing ∨ (k.state = .moving ∧ m ≠ .queued)) := fun k => by
    cases hs : k.state <;> simp [NeutralStep.account, NeutralState.phase, hs]
  constructor
  · rintro ⟨a, ha, hb⟩
    obtain ⟨k, hk, hr, rfl⟩ := (account_neutral_eq_some h).1 ha
    exact ⟨k, hk, hr, (hp k).1 hb⟩
  · rintro ⟨k, hk, hr, hb⟩
    exact ⟨_, (account_neutral_eq_some h).2 ⟨k, hk, hr, rfl⟩, (hp k).2 hb⟩

theorem ownerLive_iff {s : State} (h : WavesOk s) (hn : (s.neutral.steps.map fun k => k.row).Nodup) (x : Turbine) :
    OwnerLive s x ↔ ∀ o, x.live.owner = some o → o.row = x.config.row ∧ Backs (s.account o) x.live.move := by
  unfold OwnerLive
  cases ho : x.live.owner with
  | none => simp
  | some o =>
    simp only [Option.some.injEq, forall_eq']
    cases o with
    | low n r => rw [backs_low_iff h]; exact and_congr_left fun _ => eq_comm
    | neutral r => rw [backs_neutral_iff hn]; exact and_congr_left fun _ => eq_comm

theorem countsOk_iff {s : State} (h : WavesOk s) (hn : (s.neutral.steps.map fun k => k.row).Nodup) : CountsOk s ↔
    ∀ o a, s.account o = some a → a.phase ≠ .ended → a.needed = a.counted + ownedIn s.turbines o := by
  constructor
  · rintro ⟨hl, hk⟩ o a ha hp
    cases o with
    | low n r =>
      obtain ⟨w, hw, rfl, st, hst, rfl, rfl⟩ := (account_low_eq_some h).1 ha
      refine hl w hw st hst ?_
      simpa [WaveStep.account, phase_ended_iff] using hp
    | neutral r =>
      obtain ⟨k, hkm, rfl, rfl⟩ := (account_neutral_eq_some hn).1 ha
      exact hk k hkm fun e => hp ((neutral_phase_ended_iff _).2 e)
  · refine fun H => ⟨fun w hw st hst ht => ?_, fun k hk hd => ?_⟩
    · refine H _ _ (account_of_step h hw hst) ?_
      simp [WaveStep.account, phase_ended_iff, ht]
    · exact H _ _ ((account_neutral_eq_some hn).2 ⟨k, hk, rfl, rfl⟩) fun e => hd ((neutral_phase_ended_iff _).1 e)

/-- A table in which no owner has a live account is at rest. -/
theorem Books.nothing {acc : Owner → Option Account} {T : List Turbine} {d : Desk} (h : Books acc T d) (hb : ∀ o, ¬Busy (acc o)) :
    d.low = [] ∧ d.high = [] ∧ d.retargets = [] ∧ d.lowSlots = 0 ∧ d.highSlots = 0 := by
  have hidle : ∀ x ∈ T, x.live.move = .idle ∧ x.live.slot = none := fun x hx =>
    h.idle_of_unowned hx (Option.eq_none_iff_forall_ne_some.2 fun o e => hb o (h.owners x hx o e).2.busy)
  have hlist : ∀ {l : List Nat} {waits : Turbine → Bool}, Named T l waits → (∀ x ∈ T, waits x = false) → l = [] := by
    intro l waits hl hw
    refine List.eq_nil_iff_forall_not_mem.2 fun n hn => ?_
    obtain ⟨x, hx, -, e⟩ := hl.2.1 n hn
    rw [hw x hx] at e
    cases e
  refine ⟨hlist h.low fun x hx => ?_, hlist h.high fun x hx => ?_, hlist h.retargets fun x hx => ?_, ?_, ?_⟩
  · simp [Turbine.waitsLow, (hidle x hx).1]
  · simp [Turbine.waitsHigh, (hidle x hx).1]
  · simp [Turbine.retargeting, (hidle x hx).1]
  · rw [h.lowSlots, List.countP_eq_zero]
    intro x hx
    simp [(hidle x hx).2]
  · rw [h.highSlots, List.countP_eq_zero]
    intro x hx
    simp [(hidle x hx).2]

theorem Judged.idle {n : Neutral} (h : Judged n) (ha : n.active = false) : n.steps = [] := by rw [h.2 ha]

/-- Without waves and neutral steps no account is busy. -/
theorem not_busy_of_empty {s : State} (hw : s.waves = []) (hn : s.neutral.steps = []) (o : Owner) : s.account o = none := by
  cases o <;> simp [State.account, State.step?, State.wave?, State.neutralStep?, hw, hn]

theorem arbiterOk_iff {s : State} : ArbiterOk s ↔ WithinBudget s ∧ Sound s := by
  constructor
  · rintro ⟨hb, ht, ⟨hw, hrows, hord, hap⟩, ⟨hsort, h15, hact, hin⟩, hc, hx, hl, hh, hnl, hnh, hnr, hp, hr⟩
    exact ⟨hb,
      { table := ht
        waves := hw
        ordered := (ordered_iff hw).2 hord
        rows := ⟨hsort, h15⟩
        books :=
          { handled := fun x hm => (hx x hm).1
            owners := fun x hm => (ownerLive_iff hw hrows x).1 (hx x hm).2
            counts := (countsOk_iff hw hrows).1 hc
            lowSlots := hl, highSlots := hh, low := hnl, high := hnh, retargets := hnr }
        apart := (apart_iff hw hrows).2 hap
        judged := ⟨hact, hin⟩
        pass := fun e => ⟨(hp e).1, (hp e).2.1⟩
        returning := hr }⟩
  · rintro ⟨hb, h⟩
    refine ⟨hb, h.table, ⟨h.waves, h.rows.nodup, (ordered_iff h.waves).1 h.ordered, (apart_iff h.waves h.rows.nodup).1 h.apart⟩,
      ⟨h.rows.1, h.rows.2, h.judged⟩, (countsOk_iff h.waves h.rows.nodup).2 h.books.counts,
      fun x hx => ⟨h.books.handled x hx, (ownerLive_iff h.waves h.rows.nodup x).2 (h.books.owners x hx)⟩, h.books.lowSlots,
      h.books.highSlots, h.books.low, h.books.high, h.books.retargets, fun e => ?_, h.returning⟩
    obtain ⟨hw, ha⟩ := h.pass e
    have hn := h.books.nothing fun o => by
      rw [not_busy_of_empty hw (h.judged.idle ha) o]
      rintro ⟨x, hx, -⟩
      cases hx
    exact ⟨hw, ha, hn⟩

end Sys2Proof.Machine

/-!
Operations on steps through accounts. Most only end accounts that own nothing (`Settling`): a trigger, a skip, a cancellation, a completion.
-/

namespace Sys2Proof.Machine

/-- Accounts stand or, where they are not busy, end. -/
def Settles (acc acc' : Owner → Option Account) : Prop := ∀ o, acc' o = acc o ∨ (¬Busy (acc o) ∧ Ended (acc' o))

/-- No LOW account becomes busy, and none that has ended comes back. -/
def Tames (acc acc' : Owner → Option Account) : Prop :=
  ∀ n r, (Busy (acc' (.low n r)) → Busy (acc (.low n r))) ∧ (Ended (acc (.low n r)) → Ended (acc' (.low n r)))

theorem Settles.refl (acc : Owner → Option Account) : Settles acc acc := fun _ => .inl rfl

theorem Settles.of_eq {acc acc' : Owner → Option Account} (h : acc' = acc) : Settles acc acc' := h ▸ Settles.refl acc

theorem Settles.trans {a b c : Owner → Option Account} (h : Settles a b) (k : Settles b c) : Settles a c := fun o => by
  rcases h o with h | ⟨h1, h2⟩ <;> rcases k o with k | ⟨k1, k2⟩
  · exact .inl (k.trans h)
  · exact .inr ⟨h ▸ k1, k2⟩
  · exact .inr ⟨h1, k ▸ h2⟩
  · exact .inr ⟨h1, k2⟩

theorem Settles.not_busy {acc acc' : Owner → Option Account} (h : Settles acc acc') {o : Owner} (hb : ¬Busy (acc o)) : ¬Busy (acc' o) := by
  rcases h o with e | ⟨-, e⟩
  · rwa [e]
  · exact e.not_busy

theorem Settles.tames {acc acc' : Owner → Option Account} (h : Settles acc acc') : Tames acc acc' := fun n r => by
  rcases h (.low n r) with e | ⟨-, e⟩
  · rw [e]; exact ⟨id, id⟩
  · exact ⟨fun hb => absurd hb e.not_busy, fun _ => e⟩

theorem Tames.refl (acc : Owner → Option Account) : Tames acc acc := fun _ _ => ⟨id, id⟩

/-- An account is ended. -/
def Account.close (a : Account) : Account := { a with phase := .ended }

theorem settles_close {acc : Owner → Option Account} {o : Owner} (h : ¬Busy (acc o)) : Settles acc (revise o Account.close acc) := fun p => by
  by_cases e : p = o
  · subst e
    refine .inr ⟨h, fun x hx => ?_⟩
    rw [revise, if_pos rfl] at hx
    obtain ⟨a, -, rfl⟩ := Option.map_eq_some_iff.1 (Option.mem_def.1 hx)
    rfl
  · exact .inl (if_neg e)

/-- A step operation that only ends accounts that own nothing. -/
structure Settling (s t : State) : Prop where
  aside : WavesOnly s t
  shaped : Shaped s t
  accounts : Settles s.account t.account

namespace Settling

theorem refl (s : State) : Settling s s := ⟨WavesOnly.refl s, Shaped.refl s, Settles.refl _⟩

theorem trans {s t u : State} (a : Settling s t) (b : Settling t u) : Settling s u :=
  ⟨a.aside.trans b.aside, a.shaped.trans b.shaped, a.accounts.trans b.accounts⟩

theorem wavesOk {s t : State} (a : Settling s t) (h : WavesOk s) : WavesOk t :=
  wavesOk_of_shaped h a.aside.plans a.aside.waveCounter a.shaped

/-- An operation that leaves the waves alone. -/
theorem of_waves {s t : State} (h : WavesOnly s t) (hw : t.waves = s.waves) : Settling s t :=
  ⟨h, Shaped.of_waves hw, Settles.of_eq (account_congr hw h.neutral)⟩

/-- A change of a step that leaves its account. -/
theorem updStep_same (s : State) (n r : Nat) {g : WaveStep → WaveStep} (hg : ∀ x, (g x).row = x.row)
    (hf : ∀ st, s.step? n r = some st → (g st).account = st.account) : Settling s (s.updStep n r g) :=
  ⟨WavesOnly.updStep s n r g, Shaped.updStep s n r hg, Settles.of_eq (account_updStep_same s n r hg hf)⟩

/-- The end of a step that owns nothing. -/
theorem updStep_close (s : State) (n r : Nat) {g : WaveStep → WaveStep} (hg : ∀ x, (g x).row = x.row)
    (hf : ∀ st, (g st).account = st.account.close) (hb : ¬Busy (s.account (.low n r))) : Settling s (s.updStep n r g) :=
  ⟨WavesOnly.updStep s n r g, Shaped.updStep s n r hg,
    account_updStep s n r hg (fun st _ => hf st) ▸ settles_close hb⟩

end Settling

theorem Wave.successor_mem {w : Wave} {r : Nat} {st : WaveStep} (h : w.successor r = some st) : st ∈ w.steps := by
  unfold Wave.successor at h
  split at h
  · exact (List.dropWhile_sublist _).subset (List.mem_of_mem_tail (List.mem_of_find?_eq_some h))
  · cases h

namespace Settling

variable {s : State}

/-- An unreleased step that enters HOLDING stays unreleased (R76). -/
theorem enterHolding {n r : Nat} (h : ∀ st, s.step? n r = some st → st.state.unreleased) : Settling s (s.enterHolding n r) := by
  unfold State.enterHolding
  split
  · exact refl s
  · split
    · exact refl s
    · refine (updStep_same s n r (g := fun x => { x with state := .holding, hold := 0, cmpA := .pending, cmpP := none, owesTest := false, owesDeadline := false })
        (fun _ => rfl) fun st hst => ?_).trans (of_waves rfl rfl)
      simp only [WaveStep.account, (phase_unreleased_iff _).2 (h st hst)]
      rfl

theorem trigger (h : WavesOk s) (n r : Nat) : Settling s (s.trigger n r) := by
  unfold State.trigger
  split
  · rename_i nxt hn
    obtain ⟨w, hf, hs⟩ := Option.bind_eq_some_iff.1 hn
    obtain ⟨hw, rfl⟩ := State.wave?_mem hf
    split
    · rename_i hwait
      refine enterHolding fun st hst => ?_
      rw [h.step?_of_mem hw (Wave.successor_mem hs)] at hst
      cases hst
      exact .inl hwait
    · exact refl s
  · exact refl s

theorem dropHold (s : State) (n r : Nat) : Settling s (s.dropHold n r) := by
  unfold State.dropHold
  split
  · split
    · exact (of_waves (s := s) (t := s.withdraw (.hold n r)) rfl rfl).trans (updStep_same _ n r
        (g := fun x => { x with cmpA := .absent }) (fun _ => rfl) fun _ _ => rfl)
    · exact refl s
  · exact refl s

/-- The completion of a finished wave ends its accounts (R71). -/
theorem completeWave {w : Wave} (hf : ∀ x, s.wave? w.num = some x → x.finished = true) : Settling s (s.completeWave w) := by
  refine ⟨WavesOnly.completeWave s w, Shaped.filter s _, fun o => ?_⟩
  have hwaves : (s.completeWave w).waves = s.waves.filter fun x => x.num != w.num := rfl
  cases o with
  | neutral r => exact .inl rfl
  | low n r =>
    have hfind : (s.completeWave w).wave? n = if n = w.num then none else s.wave? n := by
      rw [State.wave?, hwaves, List.find?_filter]
      by_cases e : n = w.num
      · rw [if_pos e, List.find?_eq_none]
        intro x _
        simp [e]
      · rw [if_neg e, State.wave?]
        congr 1
        funext x
        by_cases hx : x.num = n <;> simp [hx, e]
    by_cases e : n = w.num
    · subst e
      have hnone : (s.completeWave w).account (.low w.num r) = none := by simp [State.account, State.step?, hfind]
      rw [hnone]
      refine .inr ⟨?_, fun x hx => by cases hx⟩
      refine Ended.not_busy fun a ha => ?_
      obtain ⟨st, hst, rfl⟩ := Option.map_eq_some_iff.1 ha
      obtain ⟨x, hx, hst⟩ := Option.bind_eq_some_iff.1 hst
      have := hf x hx
      simp only [Wave.finished, Bool.and_eq_true, List.all_eq_true] at this
      exact (phase_ended_iff _).2 (this.2 st (Wave.step?_mem hst).1)
    · exact .inl (by simp [State.account, State.step?, hfind, e])

/-- A wave that is finished stays so, or leaves, while other waves complete. -/
theorem finished_completeWave {w : Wave} {n : Nat} (hf : ∀ x, s.wave? n = some x → x.finished = true) :
    ∀ x, (s.completeWave w).wave? n = some x → x.finished = true := fun x hx => by
  have hwaves : (s.completeWave w).waves = s.waves.filter fun x => x.num != w.num := rfl
  rw [State.wave?, hwaves, List.find?_filter] at hx
  refine hf x ?_
  by_cases e : n = w.num
  · have := List.find?_some hx
    simp [e] at this
  · rw [← hx, State.wave?]
    congr 1
    funext x
    by_cases hx : x.num = n <;> simp [hx, e]

theorem completeWaves (h : WavesOk s) : Settling s s.completeWaves := by
  have key : ∀ (l : List Wave) (u : State), (∀ w ∈ l, ∀ x, u.wave? w.num = some x → x.finished = true) →
      Settling u (l.foldl State.completeWave u) := by
    intro l
    induction l with
    | nil => exact fun u _ => refl u
    | cons w l ih =>
      intro u hu
      exact (completeWave (hu w List.mem_cons_self)).trans
        (ih _ fun x hx => finished_completeWave (hu x (List.mem_cons_of_mem _ hx)))
  refine key _ s fun w hw x hx => ?_
  obtain ⟨hm, hf⟩ := List.mem_filter.1 hw
  rw [h.wave?_of_mem hm] at hx
  cases hx
  exact hf

theorem skipStep (h : WavesOk s) {n r : Nat} (hb : ¬Busy (s.account (.low n r))) (x : SkipReason) :
    Settling s (s.skipStep n r x) := by
  have h1 := dropHold s n r
  have h2 := h1.trans (updStep_close (s.dropHold n r) n r (fun _ => rfl)
    (g := fun x => { x with state := .skipped, owesTest := false, owesDeadline := false }) (fun _ => rfl) (h1.accounts.not_busy hb))
  have h3 := h2.trans (trigger (h2.wavesOk h) n r)
  have hsay : ∀ u : State, Settling u ((u.tally fun c => { c with skips := c.skips + 1 }).notify (.stepSkipped n r x)) :=
    fun u => of_waves rfl rfl
  have h4 := h3.trans (hsay _)
  exact h4.trans (completeWaves (h4.wavesOk h))

theorem cancelStep {n r : Nat} (hb : ¬Busy (s.account (.low n r))) : Settling s (s.cancelStep n r) :=
  (dropHold s n r).trans (updStep_close _ n r (fun _ => rfl) (fun _ => rfl) ((dropHold s n r).accounts.not_busy hb))

/-- A fold of operations at steps that own nothing. -/
theorem fold {α : Type} {f : State → α → State} {key : α → Owner}
    (hf : ∀ u a, WavesOk u → ¬Busy (u.account (key a)) → Settling u (f u a)) (l : List α) (h : WavesOk s)
    (hl : ∀ a ∈ l, ¬Busy (s.account (key a))) : Settling s (l.foldl f s) := by
  induction l generalizing s with
  | nil => exact refl s
  | cons a l ih =>
    have h1 := hf s a h (hl a List.mem_cons_self)
    exact h1.trans (ih (h1.wavesOk h) fun b hb => h1.accounts.not_busy (hl b (List.mem_cons_of_mem _ hb)))

/-- The account of an unreleased step owns nothing. -/
theorem not_busy_of_unreleased {n r : Nat} (h : ∀ st, s.step? n r = some st → st.state.unreleased) : ¬Busy (s.account (.low n r)) := by
  rintro ⟨a, ha, hp⟩
  obtain ⟨st, hst, rfl⟩ := Option.map_eq_some_iff.1 ha
  have := (phase_unreleased_iff _).2 (h st hst)
  simp [WaveStep.account, this] at hp

theorem skipAt (h : WavesOk s) (r : Nat) (x : SkipReason) : Settling s (s.skipAt r x) := by
  refine fold (key := fun n => .low n r) (fun u n hu hb => skipStep hu hb x) _ h fun n hn => ?_
  obtain ⟨w, hf, rfl⟩ := List.mem_map.1 hn
  obtain ⟨hw, hc⟩ := List.mem_filter.1 hf
  refine not_busy_of_unreleased fun st hst => ?_
  simp only [Bool.and_eq_true, List.any_eq_true, Bool.or_eq_true, beq_iff_eq] at hc
  obtain ⟨-, o, ho, rfl, hu⟩ := hc
  rw [h.step?_of_mem hw ho] at hst
  cases hst
  exact hu

theorem deadlineAction (h : WavesOk s) {n r : Nat} (hb : ¬Busy (s.account (.low n r))) : Settling s (s.deadlineAction n r) := by
  unfold State.deadlineAction
  split
  · exact refl s
  · split
    · exact updStep_same s n r (fun _ => rfl) fun _ _ => rfl
    · exact skipStep h hb _

theorem returnStep (k : Nat × Nat) : Settling s (s.returnStep k) := by
  unfold State.returnStep
  split
  · exact refl s
  · rename_i st hst
    split
    · rename_i hu
      refine cancelStep (not_busy_of_unreleased fun x hx => ?_)
      rw [hst] at hx
      cases hx
      exact hu
    · exact refl s

end Settling

/-! ### What settling keeps -/

theorem Ordered.tamed {nums nums' : List Nat} {acc acc' : Owner → Option Account} (h : Ordered nums acc) (hs : nums'.Sublist nums)
    (ht : Tames acc acc') : Ordered nums' acc' :=
  (h.sublist hs).imp fun {o y} H r hb => (ht o r).2 (H r ((ht y r).1 hb))

theorem Shaped.nums {s t : State} (h : Shaped s t) : (t.waves.map fun w => w.num).Sublist (s.waves.map fun w => w.num) := by
  have := List.Sublist.map Prod.fst h
  simpa [Wave.shape, Function.comp_def] using this

theorem Shaped.nil {s t : State} (h : Shaped s t) (hs : s.waves = []) : t.waves = [] := by
  have h' : (t.waves.map Wave.shape).Sublist (s.waves.map Wave.shape) := h
  simpa [hs] using h'

theorem WavesOnly.desk {s t : State} (h : WavesOnly s t) : t.desk = s.desk := by
  simp only [State.desk, h.high, h.low, h.retargets, h.lowSlots, h.highSlots]

theorem WavesOnly.layout {s t : State} (h : WavesOnly s t) : t.layout = s.layout := by
  have hs : t.sources = s.sources := (congrArg State.sources h.aside_eq :)
  have hm : t.members = s.members := funext h.members
  simp only [State.layout, h.turbines, hm, h.plans, hs, h.params, h.nodeAddr]

/-- A change of the waves that keeps the order and the books. -/
theorem Core.waves_change {s t : State} (h : Core s) (aside : WavesOnly s t) (shaped : Shaped s t) (tames : Tames s.account t.account)
    (books : Books t.account s.turbines s.desk) : Core t where
  table := rowTableOk_of_layout aside.layout h.table
  waves := wavesOk_of_shaped h.waves aside.plans aside.waveCounter shaped
  ordered := h.ordered.tamed shaped.nums tames
  rows := aside.neutral ▸ h.rows
  books := by rw [aside.turbines, aside.desk]; exact books

/-- An account that settles changes as the books allow. -/
theorem Books.settles {acc acc' : Owner → Option Account} {T : List Turbine} {d : Desk} (h : Books acc T d) (hs : Settles acc acc') :
    Books acc' T d :=
  h.accounts fun o => (hs o).elim .same fun ⟨hb, he⟩ => .unowned (h.unowned hb) fun x hx => .inl (he x hx)

theorem Settling.core {s t : State} (a : Settling s t) (h : Core s) : Core t :=
  h.waves_change a.aside a.shaped a.accounts.tames (h.books.settles a.accounts)

/-- A change of the waves that keeps the core keeps the rest. -/
theorem Sound.waves_change {s t : State} (h : Sound s) (aside : WavesOnly s t) (shaped : Shaped s t) (tames : Tames s.account t.account)
    (core : Core t) : Sound t where
  toCore := core
  apart n r hn hl := by
    have e : t.account (.neutral r) = s.account (.neutral r) := by
      simp only [State.account, State.neutralStep?, aside.neutral]
    exact h.apart n r (e ▸ hn) ((tames n r).1 hl)
  judged := aside.neutral ▸ h.judged
  pass e := by
    obtain ⟨hw, ha⟩ := h.pass (aside.mode ▸ e)
    exact ⟨shaped.nil hw, aside.neutral ▸ ha⟩
  returning e := shaped.nil (h.returning (aside.mode ▸ e))

theorem Settling.sound {s t : State} (a : Settling s t) (h : Sound s) : Sound t :=
  h.waves_change a.aside a.shaped a.accounts.tames (a.core h.toCore)

end Sys2Proof.Machine

/-!
The release arbiter's operations through accounts: grants, retarget frames and the freeing of slots.
-/

namespace Sys2Proof.Machine

/-! ### Records and accounts -/

/-- The slot class that a turbine of an owner moves in (R123). -/
def Owner.slotClass : Owner → SlotClass
  | .low _ _ => .low
  | .neutral _ => .high

/-- The target is one that an owner's turbine can have (R125, R137, R154). -/
def Owner.Aims (o : Owner) (g : Option Int) : Prop :=
  match o with
  | .low _ _ => g.isSome = true
  | .neutral _ => g = some 0

/-- What a record holds in each move state (R122, R123). -/
theorem Turbine.handled_iff {x : Turbine} : x.handled ↔
    (x.live.move = .idle ∧ x.live.slot = none ∧ x.live.owner = none) ∨
    ∃ o, x.live.owner = some o ∧ o.Aims x.live.target ∧
      ((x.live.move = .queued ∧ x.live.slot = none) ∨ (x.live.move = .moving ∧ x.live.slot = some o.slotClass) ∨
        (x.live.move = .retarget ∧ x.live.slot = some .high ∧ ∃ r, o = .neutral r)) := by
  unfold Turbine.handled
  rcases x.live.owner with _ | (_ | _) <;> cases x.live.move <;> rcases x.live.slot with _ | (_ | _) <;>
    simp [Owner.Aims, Owner.slotClass]

theorem handled_idle {x : Turbine} (hm : x.live.move = .idle) (hs : x.live.slot = none) (ho : x.live.owner = none) : x.handled :=
  Turbine.handled_iff.2 (.inl ⟨hm, hs, ho⟩)

theorem handled_queued {x : Turbine} {o : Owner} (ho : x.live.owner = some o) (ha : o.Aims x.live.target) (hm : x.live.move = .queued)
    (hs : x.live.slot = none) : x.handled := Turbine.handled_iff.2 (.inr ⟨o, ho, ha, .inl ⟨hm, hs⟩⟩)

theorem handled_moving {x : Turbine} {o : Owner} (ho : x.live.owner = some o) (ha : o.Aims x.live.target) (hm : x.live.move = .moving)
    (hs : x.live.slot = some o.slotClass) : x.handled := Turbine.handled_iff.2 (.inr ⟨o, ho, ha, .inr (.inl ⟨hm, hs⟩)⟩)

/-- One member more is counted. -/
def Account.count (k : Nat) (a : Account) : Account := { a with counted := a.counted + k }

/-- One member more is needed. -/
def Account.need (k : Nat) (a : Account) : Account := { a with needed := a.needed + k }

/-- The account is of a step in a phase. -/
def Account.enter (p : Phase) (a : Account) : Account := { a with phase := p }

theorem revise_self (o : Owner) (f : Account → Account) (acc : Owner → Option Account) : revise o f acc o = (acc o).map f := if_pos rfl

theorem revise_ne {o p : Owner} (h : p ≠ o) (f : Account → Account) (acc : Owner → Option Account) : revise o f acc p = acc p := if_neg h

theorem revise_comm {o p : Owner} (h : o ≠ p) (f g : Account → Account) (acc : Owner → Option Account) :
    revise o f (revise p g acc) = revise p g (revise o f acc) := by
  funext q
  by_cases e : q = o
  · subst e; simp [revise, h]
  · simp [revise, e]

theorem revise_revise (o : Owner) (f g : Account → Account) (acc : Owner → Option Account) :
    revise o f (revise o g acc) = revise o (f ∘ g) acc := by
  funext q
  by_cases e : q = o
  · subst e; simp [revise]
  · simp [revise, e]

theorem Transfers.trans {a b c : Owner → Option Account} {x y z : Option Owner} (h : Transfers a b x y) (k : Transfers b c y z) :
    Transfers a c x z := fun o => by
  obtain ⟨h1, h2⟩ := h o
  obtain ⟨k1, k2⟩ := k o
  refine ⟨k1.trans h1, fun u hu w hw hp => ?_⟩
  rw [Option.mem_def] at hu hw
  rw [hu] at h1
  obtain ⟨v, hv, e⟩ := Option.map_eq_some_iff.1 h1
  have e1 := h2 u hu v hv hp
  have e2 := k2 v hv w hw (by rwa [e])
  omega

/-- A turbine leaves its owner, which counts it. -/
theorem transfers_count (acc : Owner → Option Account) (o : Owner) : Transfers acc (revise o (Account.count 1) acc) (some o) none := fun p => by
  by_cases e : p = o
  · subst e
    rw [revise_self]
    refine ⟨by cases acc p <;> rfl, fun x hx y hy _ => ?_⟩
    rw [Option.mem_def] at hx hy
    rw [hx] at hy
    cases hy
    simp [Account.count]
    omega
  · rw [revise_ne e]
    refine ⟨rfl, fun x hx y hy _ => ?_⟩
    cases (Option.mem_def.1 hx).symm.trans (Option.mem_def.1 hy)
    simp [Ne.symm e]

/-- A turbine without an owner comes to one, which needs it. -/
theorem transfers_need (acc : Owner → Option Account) (o : Owner) : Transfers acc (revise o (Account.need 1) acc) none (some o) := fun p => by
  by_cases e : p = o
  · subst e
    rw [revise_self]
    refine ⟨by cases acc p <;> rfl, fun x hx y hy _ => ?_⟩
    rw [Option.mem_def] at hx hy
    rw [hx] at hy
    cases hy
    simp [Account.need]
    omega
  · rw [revise_ne e]
    refine ⟨rfl, fun x hx y hy _ => ?_⟩
    cases (Option.mem_def.1 hx).symm.trans (Option.mem_def.1 hy)
    simp [Ne.symm e]

/-- A revision that keeps phases neither makes an account busy nor revives one. -/
theorem tames_revise {acc : Owner → Option Account} {o : Owner} {f : Account → Account}
    (hb : ∀ a, acc o = some a → ((f a).phase = .releasing ∨ (f a).phase = .moving) → a.phase = .releasing ∨ a.phase = .moving)
    (he : ∀ a, acc o = some a → a.phase = .ended → (f a).phase = .ended) : Tames acc (revise o f acc) := fun n r => by
  by_cases e : Owner.low n r = o
  · subst e
    rw [revise_self]
    refine ⟨?_, fun hend x hx => ?_⟩
    · rintro ⟨x, hx, hp⟩
      obtain ⟨a, ha, rfl⟩ := Option.map_eq_some_iff.1 (Option.mem_def.1 hx)
      exact ⟨a, ha, hb a ha hp⟩
    · obtain ⟨a, ha, rfl⟩ := Option.map_eq_some_iff.1 (Option.mem_def.1 hx)
      exact he a ha (hend a ha)
  · rw [revise_ne e]
    exact ⟨id, id⟩

theorem Tames.trans {a b c : Owner → Option Account} (h : Tames a b) (k : Tames b c) : Tames a c := fun n r =>
  ⟨fun x => (h n r).1 ((k n r).1 x), fun x => (k n r).2 ((h n r).2 x)⟩

/-! ### What a change of the state keeps -/

theorem plans_of_layout {s t : State} (h : t.layout = s.layout) : t.plans = s.plans := by
  simp only [State.layout, Prod.mk.injEq] at h
  exact h.2.2.1

/-- The core of the invariant after a change, part by part. -/
theorem Core.change {s t : State} (h : Core s) (layout : t.layout = s.layout) (counter : t.waveCounter = s.waveCounter)
    (shaped : Shaped s t) (rows : NeutralRows t.neutral.steps) (tames : Tames s.account t.account)
    (books : Books t.account t.turbines t.desk) : Core t where
  table := rowTableOk_of_layout layout h.table
  waves := wavesOk_of_shaped h.waves (plans_of_layout layout) counter shaped
  ordered := h.ordered.tamed shaped.nums tames
  rows := rows
  books := books

/-- The rest of the invariant after a change. -/
theorem Sound.change {s t : State} (h : Sound s) (core : Core t) (shaped : Shaped s t) (tames : Tames s.account t.account)
    (apart : ∀ r, Busy (t.account (.neutral r)) → Busy (s.account (.neutral r))) (judged : Judged t.neutral) (mode : t.mode = s.mode)
    (inactive : s.neutral.active = false → t.neutral.active = false) : Sound t where
  toCore := core
  apart n r hn hl := h.apart n r (apart r hn) ((tames n r).1 hl)
  judged := judged
  pass e := ⟨shaped.nil (h.pass (mode ▸ e)).1, inactive (h.pass (mode ▸ e)).2⟩
  returning e := shaped.nil (h.returning (mode ▸ e))

/-- A change that leaves the waves and the neutral context alone. -/
theorem Core.live_change {s t : State} (h : Core s) (layout : t.layout = s.layout) (counter : t.waveCounter = s.waveCounter)
    (waves : t.waves = s.waves) (neutral : t.neutral = s.neutral) (books : Books s.account t.turbines t.desk) : Core t :=
  h.change layout counter (Shaped.of_waves waves) (neutral ▸ h.rows) (account_congr waves neutral ▸ Tames.refl _)
    (account_congr waves neutral ▸ books)

theorem Sound.live_change {s t : State} (h : Sound s) (layout : t.layout = s.layout) (counter : t.waveCounter = s.waveCounter)
    (waves : t.waves = s.waves) (neutral : t.neutral = s.neutral) (mode : t.mode = s.mode)
    (books : Books s.account t.turbines t.desk) : Sound t :=
  h.change (h.toCore.live_change layout counter waves neutral books) (Shaped.of_waves waves)
    (account_congr waves neutral ▸ Tames.refl _) (fun r hb => by rwa [account_congr waves neutral] at hb) (neutral ▸ h.judged) mode
    fun e => neutral ▸ e

theorem layout_updLive (s : State) (n : Nat) (g : Live → Live) : (s.updLive n g).layout = s.layout := by
  rw [State.updLive_eq]
  simp only [State.layout, List.map_map, Function.comp_def]
  rfl

/-! ### A step enters DONE -/

/-- A step that enters DONE ends its account; its successor stays unreleased (R96). -/
theorem account_enterDone {s : State} (h : WavesOk s) (n r : Nat) :
    Shaped s (s.enterDone n r) ∧ ∃ acc, acc = revise (.low n r) Account.close s.account ∧ Settles acc (s.enterDone n r).account := by
  unfold State.enterDone
  split
  · rename_i hnone
    refine ⟨Shaped.refl s, _, rfl, Settles.of_eq ?_⟩
    funext o
    by_cases e : o = .low n r
    · subst e; simp [revise, State.account, hnone]
    · rw [revise_ne e]
  · dsimp only
    have e := account_updStep s n r (g := fun x => { x with state := .done, set := some x.hold, owesTest := false, owesDeadline := false })
      (f := Account.close) (fun _ => rfl) fun _ _ => rfl
    have hs := Shaped.updStep s n r (g := fun x => { x with state := .done, set := some x.hold, owesTest := false, owesDeadline := false })
      fun _ => rfl
    split
    · exact ⟨hs, _, rfl, Settles.of_eq e⟩
    · have ht := Settling.trigger (wavesOk_of_shaped (t := s.updStep n r _) h rfl rfl hs) n r
      exact ⟨hs.trans ht.shaped, _, rfl, e ▸ ht.accounts⟩

/-- A step that owns no turbine enters DONE. -/
theorem Core.enterDone {s : State} (h : Core s) {n r : Nat} (hu : ownedIn s.turbines (.low n r) = 0) : Core (s.enterDone n r) ∧
    Tames s.account (s.enterDone n r).account := by
  obtain ⟨hs, acc, rfl, ha⟩ := account_enterDone h.waves n r
  have ht : Tames s.account (revise (.low n r) Account.close s.account) :=
    tames_revise (fun a _ hp => by rcases hp with hp | hp <;> cases hp) fun _ _ _ => rfl
  refine ⟨h.waves_change (WavesOnly.enterDone s n r) hs (ht.trans ha.tames) (Books.settles (h.books.accounts fun o => ?_) ha),
    ht.trans ha.tames⟩
  by_cases e : o = .low n r
  · subst e
    refine .unowned hu fun x hx => .inl ?_
    rw [revise_self] at hx
    obtain ⟨a, -, rfl⟩ := Option.map_eq_some_iff.1 (Option.mem_def.1 hx)
    rfl
  · exact .same (revise_ne e _ _)

theorem Sound.enterDone {s : State} (h : Sound s) {n r : Nat} (hu : ownedIn s.turbines (.low n r) = 0) : Sound (s.enterDone n r) :=
  h.waves_change (WavesOnly.enterDone s n r) (account_enterDone h.waves n r).1 (h.toCore.enterDone hu).2 (h.toCore.enterDone hu).1

theorem Sound.completeWaves {s : State} (h : Sound s) : Sound s.completeWaves := (Settling.completeWaves h.waves).sound h

/-! ### What the owners are told -/

/-- A turbine that is queued for a LOW step stands in the LOW list. -/
theorem Core.not_queued {s : State} (h : Core s) {n r : Nat} (hq : s.queuedFor n r = []) :
    ∀ y ∈ s.turbines, y.live.owner = some (.low n r) → y.live.move ≠ .queued := fun y hy ho hm => by
  have hl : y.node ∈ s.low := h.books.low.2.2 y hy (by simp [Turbine.waitsLow, hm, ho])
  have : y.node ∈ s.queuedFor n r := List.mem_filter.2 ⟨hl, by simp [State.ownerOf, h.table.turbine?_of_mem hy, ho]⟩
  rw [hq] at this
  cases this

/-- A turbine that is queued for a neutral step stands in the HIGH list. -/
theorem Core.not_queued_neutral {s : State} (h : Core s) {r : Nat} (hq : s.neutralQueued r = false) :
    ∀ y ∈ s.turbines, y.live.owner = some (.neutral r) → y.live.move ≠ .queued := fun y hy ho hm => by
  have hl : y.node ∈ s.high := h.books.high.2.2 y hy (by simp [Turbine.waitsHigh, hm, ho])
  refine absurd hq ?_
  simp only [State.neutralQueued, Bool.not_eq_false, List.any_eq_true]
  exact ⟨y.node, hl, by simp [State.ownerOf, h.table.turbine?_of_mem hy, ho]⟩

/-- RELEASING becomes MOVING where no turbine of the step is queued (R93). -/
theorem Sound.move {s : State} (h : Sound s) {n r : Nat} {st : WaveStep} (hst : s.step? n r = some st) (hp : st.state = .releasing)
    (hq : s.queuedFor n r = []) : Sound (s.updStep n r fun x => { x with state := .moving }) := by
  have e := account_updStep s n r (g := fun x => { x with state := .moving }) (f := Account.enter .moving) (fun _ => rfl) fun _ _ => rfl
  have hs := Shaped.updStep s n r (g := fun x => { x with state := .moving }) fun _ => rfl
  have hacc : s.account (.low n r) = some st.account := by simp [State.account, hst]
  have hph : st.account.phase = .releasing := by simp [WaveStep.account, hp, StepState.phase]
  have ht : Tames s.account (s.updStep n r fun x => { x with state := .moving }).account := by
    rw [e]
    refine tames_revise (fun a ha _ => ?_) fun a ha hend => ?_ <;> cases hacc.symm.trans ha
    · exact .inl hph
    · rw [hph] at hend; cases hend
  refine h.waves_change rfl hs ht (h.toCore.waves_change rfl hs ht (h.books.accounts fun o => ?_))
  rw [e]
  by_cases eo : o = .low n r
  · subst eo
    exact .moving _ hacc hph (by rw [revise_self, hacc]; rfl) (h.toCore.not_queued hq)
  · exact .same (revise_ne eo _ _)

theorem Sound.grantedLow {s : State} (h : Sound s) (n r : Nat) : Sound (s.grantedLow n r) := by
  unfold State.grantedLow
  split
  · exact h
  · rename_i st hst
    dsimp only
    have key : ∀ u, Settling s u → Sound (if st.state = .releasing ∧ u.queuedFor n r = [] then
        u.updStep n r fun x => { x with state := .moving } else u) := fun u hu => by
      split
      · rename_i hc
        have hacc : s.account (.low n r) = some st.account := by simp [State.account, hst]
        have hph : st.account.phase = .releasing := by simp [WaveStep.account, hc.1, StepState.phase]
        have hacc' : u.account (.low n r) = some st.account := by
          rcases hu.accounts (.low n r) with e | ⟨hb, -⟩
          · rw [e, hacc]
          · exact absurd ⟨_, hacc, .inl hph⟩ hb
        obtain ⟨st', hst', e⟩ := Option.map_eq_some_iff.1 hacc'
        refine (hu.sound h).move hst' ?_ hc.2
        have : st'.state.phase = .releasing := (congrArg Account.phase e).trans hph
        cases hx : st'.state <;> simp [hx, StepState.phase] at this ⊢
      · exact hu.sound h
    split
    · have h0 := Settling.updStep_same s n r (g := fun x => { x with rel := some x.hold }) (fun _ => rfl) fun _ _ => rfl
      split
      · exact key _ (h0.trans (Settling.trigger (h0.wavesOk h.waves) n r))
      · exact key _ h0
    · exact key _ (Settling.refl s)

theorem neutralRows_map {l : List NeutralStep} (h : NeutralRows l) {g : NeutralStep → NeutralStep} (hg : ∀ k, (g k).row = k.row) :
    NeutralRows (l.map g) := by
  refine ⟨?_, fun k hk => ?_⟩
  · rw [List.map_map, show (fun k : NeutralStep => k.row) ∘ g = fun k => k.row from funext hg]
    exact h.1
  · obtain ⟨k, hm, rfl⟩ := List.mem_map.1 hk
    rw [hg]
    exact h.2 k hm

theorem neutralRows_updNeutral {s : State} (h : NeutralRows s.neutral.steps) (r : Nat) {g : NeutralStep → NeutralStep}
    (hg : ∀ k, (g k).row = k.row) : NeutralRows (s.updNeutral r g).neutral.steps :=
  neutralRows_map h fun k => by split <;> simp [hg]

/-- A neutral step as its last queued request is granted (R155). -/
def NeutralStep.advance (k : NeutralStep) : NeutralStep := if k.state = .releasing then { k with state := .moving } else k

theorem NeutralStep.advance_row (k : NeutralStep) : k.advance.row = k.row := by unfold NeutralStep.advance; split <;> rfl

theorem NeutralStep.advance_done (k : NeutralStep) : k.advance.state = .done ↔ k.state = .done := by
  obtain ⟨_, state, _⟩ := k
  cases state <;> simp [NeutralStep.advance]

theorem NeutralStep.advance_account (k : NeutralStep) :
    k.advance.account = if k.account.phase = .releasing then k.account.enter .moving else k.account := by
  obtain ⟨_, state, _⟩ := k
  cases state <;> rfl

theorem Sound.grantedNeutral {s : State} (h : Sound s) (r : Nat) : Sound (s.grantedNeutral r) := by
  unfold State.grantedNeutral
  split
  · exact h
  · rename_i hq
    have hdone : ∀ k : NeutralStep, (if k.row = r then k.advance else k).state = .done ↔ k.state = .done := fun k => by
      split
      · exact k.advance_done
      · rfl
    have e := account_updNeutral s r (g := NeutralStep.advance)
      (f := fun a => if a.phase = .releasing then a.enter .moving else a) NeutralStep.advance_row fun k _ => k.advance_account
    change Sound (s.updNeutral r NeutralStep.advance)
    have hrows := neutralRows_updNeutral h.rows r NeutralStep.advance_row
    have hbooks : Books (s.updNeutral r NeutralStep.advance).account s.turbines s.desk := h.books.accounts fun o => by
      rw [e]
      by_cases eo : o = .neutral r
      · subst eo
        rw [revise_self]
        cases ha : s.account (.neutral r) with
        | none => exact .same rfl
        | some a =>
          by_cases hp : a.phase = .releasing
          · exact .moving a rfl hp (by simp [hp, Account.enter]) (h.toCore.not_queued_neutral (by simpa using hq))
          · exact .same (by simp [hp])
      · exact .same (revise_ne eo _ _)
    have ht : Tames s.account (s.updNeutral r NeutralStep.advance).account := fun n q => by rw [e, revise_ne (by simp)]; exact ⟨id, id⟩
    have hcore : Core (s.updNeutral r NeutralStep.advance) := h.toCore.change rfl rfl (Shaped.of_waves rfl) hrows ht hbooks
    refine h.change hcore (Shaped.of_waves rfl) ht (fun q hb => ?_) ⟨fun ha => ?_, fun ha => ?_⟩ rfl id
    · obtain ⟨k, hk, hr, hd⟩ := (busy_neutral_iff hcore.rows.nodup).1 hb
      obtain ⟨k, hkm, rfl⟩ := List.mem_map.1 hk
      refine (busy_neutral_iff h.rows.nodup).2 ⟨k, hkm, ?_, fun ed => hd ((hdone k).2 ed)⟩
      rw [← hr]
      split <;> simp [NeutralStep.advance_row]
    · obtain ⟨k, hk, hd⟩ := h.judged.1 ha
      exact ⟨_, List.mem_map_of_mem hk, fun ed => hd ((hdone k).1 ed)⟩
    · have := h.judged.2 ha
      simp [State.updNeutral, this]

theorem Sound.tellGranted {s : State} (h : Sound s) (o : Option Owner) : Sound (s.tellGranted o) := by
  unfold State.tellGranted
  split
  · exact h.grantedLow _ _
  · exact h.grantedNeutral _
  · exact h

end Sys2Proof.Machine

/-! The release arbiter's frames and the freeing of slots keep the invariant. -/

namespace Sys2Proof.Machine

/-- A turbine that waits in the LOW list is QUEUED for a LOW step, and holds no slot. -/
theorem Books.waiting_low {acc : Owner → Option Account} {T : List Turbine} {d : Desk} (h : Books acc T d) {x : Turbine} (hx : x ∈ T)
    (hw : x.waitsLow = true) : x.live.move = .queued ∧ x.live.slot = none ∧ ∃ n r, x.live.owner = some (.low n r) := by
  have hh := h.handled x hx
  unfold Turbine.waitsLow at hw
  split at hw
  · rename_i n r hm ho
    rcases Turbine.handled_iff.1 hh with ⟨hi, -⟩ | ⟨o, -, -, ⟨-, hs⟩ | ⟨hi, -⟩ | ⟨hi, -⟩⟩
    · rw [hm] at hi; cases hi
    · exact ⟨hm, hs, n, r, ho⟩
    · rw [hm] at hi; cases hi
    · rw [hm] at hi; cases hi
  · cases hw

/-- A turbine that waits in the HIGH list is QUEUED for a neutral step, and holds no slot. -/
theorem Books.waiting_high {acc : Owner → Option Account} {T : List Turbine} {d : Desk} (h : Books acc T d) {x : Turbine} (hx : x ∈ T)
    (hw : x.waitsHigh = true) : x.live.move = .queued ∧ x.live.slot = none ∧ ∃ r, x.live.owner = some (.neutral r) := by
  have hh := h.handled x hx
  unfold Turbine.waitsHigh at hw
  split at hw
  · rename_i r hm ho
    rcases Turbine.handled_iff.1 hh with ⟨hi, -⟩ | ⟨o, -, -, ⟨-, hs⟩ | ⟨hi, -⟩ | ⟨hi, -⟩⟩
    · rw [hm] at hi; cases hi
    · exact ⟨hm, hs, r, ho⟩
    · rw [hm] at hi; cases hi
    · rw [hm] at hi; cases hi
  · cases hw

/-- A turbine with an owner has a target that the owner can give. -/
theorem Books.aims {acc : Owner → Option Account} {T : List Turbine} {d : Desk} (h : Books acc T d) {x : Turbine} (hx : x ∈ T)
    {o : Owner} (ho : x.live.owner = some o) : o.Aims x.live.target := by
  rcases Turbine.handled_iff.1 (h.handled x hx) with ⟨-, -, hn⟩ | ⟨p, hp, ha, -⟩
  · rw [ho] at hn; cases hn
  · cases ho.symm.trans hp; exact ha

section Lists
variable {acc : Owner → Option Account} {T : List Turbine} {d : Desk} (h : Books acc T d) (hn : (T.map fun t => t.node).Nodup)
  {x : Turbine} (hx : x ∈ T) {g : Live → Live}
include h hn hx

theorem Books.low_stands (e : Turbine.waitsLow { x with live := g x.live } = x.waitsLow) :
    Restands x.node (Turbine.waitsLow { x with live := g x.live }) d.low d.low := by
  rw [e]; exact .same h.low.1 (h.low.mem_iff hn hx)

theorem Books.high_stands (e : Turbine.waitsHigh { x with live := g x.live } = x.waitsHigh) :
    Restands x.node (Turbine.waitsHigh { x with live := g x.live }) d.high d.high := by
  rw [e]; exact .same h.high.1 (h.high.mem_iff hn hx)

theorem Books.retargets_stand (e : Turbine.retargeting { x with live := g x.live } = x.retargeting) :
    Restands x.node (Turbine.retargeting { x with live := g x.live }) d.retargets d.retargets := by
  rw [e]; exact .same h.retargets.1 (h.retargets.mem_iff hn hx)

end Lists

/-! ### Grants (R130) -/

theorem State.framed_layout (s : State) (x : Turbine) (c : SlotClass) (g : Int) (set : Nat) : (s.framed x c g set).layout = s.layout :=
  (layout_updLive (s.sendD _) x.node (Live.granted c g)).trans rfl

theorem State.framed_turbines (s : State) (x : Turbine) (c : SlotClass) (g : Int) (set : Nat) :
    (s.framed x c g set).turbines = relive x.node (Live.granted c g) s.turbines := rfl

theorem State.framed_desk (s : State) (x : Turbine) (c : SlotClass) (g : Int) (set : Nat) : (s.framed x c g set).desk = s.desk := rfl

theorem State.takeSlot_layout (s : State) (c : SlotClass) : (s.takeSlot c).layout = s.layout := rfl

theorem State.dequeue_layout (s : State) (c : SlotClass) : (s.dequeue c).layout = s.layout := by cases c <;> rfl

/-- The state in which an owner is told of a grant, field by field. -/
theorem State.granting_fields (s : State) (x : Turbine) (c : SlotClass) (g : Int) (set : Nat) :
    (((s.dequeue c).framed x c g set).takeSlot c).layout = s.layout ∧
      (((s.dequeue c).framed x c g set).takeSlot c).waveCounter = s.waveCounter ∧
      (((s.dequeue c).framed x c g set).takeSlot c).waves = s.waves ∧
      (((s.dequeue c).framed x c g set).takeSlot c).neutral = s.neutral ∧
      (((s.dequeue c).framed x c g set).takeSlot c).mode = s.mode ∧
      (((s.dequeue c).framed x c g set).takeSlot c).turbines = relive x.node (Live.granted c g) s.turbines := by
  refine ⟨?_, ?_⟩
  · rw [State.takeSlot_layout, State.framed_layout, State.dequeue_layout]
  · have ht : (((s.dequeue c).framed x c g set).takeSlot c).turbines = ((s.dequeue c).framed x c g set).turbines := rfl
    rw [ht, State.framed_turbines, State.dequeue_turbines]
    cases c <;>
      simp only [State.takeSlot, State.framed, State.place, State.updLive, State.sendD, State.dequeue, and_self]

theorem Sound.grantLow {s : State} (h : Sound s) {n : Nat} {rest : List Nat} (hl : s.low = n :: rest) : Sound (s.grantNode n .low) := by
  have hnd := h.table.nodes_nodup
  obtain ⟨x, hx, rfl, hw⟩ := h.books.low.2.1 n (by rw [show s.desk.low = s.low from rfl, hl]; exact List.mem_cons_self)
  obtain ⟨hm, hs, w, r, ho⟩ := h.books.waiting_low hx hw
  rw [State.grantNode_eq (h.table.turbine?_of_mem hx) .low]
  obtain ⟨f1, f2, f3, f4, f5, f6⟩ := s.granting_fields x .low (x.live.target.getD 0) (s.ownerSet x.live.owner)
  have hd : (((s.dequeue .low).framed x .low (x.live.target.getD 0) (s.ownerSet x.live.owner)).takeSlot .low).desk =
      ⟨s.high, rest, s.retargets, s.lowSlots + 1, s.highSlots⟩ := by rw [← show s.low.tail = rest by rw [hl]; rfl]; rfl
  refine Sound.tellGranted (h.live_change f1 f2 f3 f4 f5 ?_) _
  have hnodup := h.books.low.1
  rw [show s.desk.low = s.low from rfl, hl] at hnodup
  rw [f6, hd]
  refine h.books.change hnd hx (handled_moving ho (h.books.aims hx ho) rfl rfl) (Transfers.refl _ _)
    (fun o e => ?_) ?_ ?_ ?_ (h.books.high_stands hnd hx ?_) (h.books.retargets_stand hnd hx ?_)
  · obtain ⟨hr, a, ha, hp⟩ := h.books.owners x hx o e
    exact ⟨hr, a, ha, hp.imp id fun hp => ⟨hp.1, by simp [Live.granted]⟩⟩
  · simp [hs, Live.granted, State.desk]
  · simp [hs, Live.granted, State.desk]
  · rw [show s.desk.low = s.low from rfl, hl]
    exact Restands.tail hnodup
  · simp [Turbine.waitsHigh, Live.granted, hm, ho]
  · simp [Turbine.retargeting, Live.granted, hm]

theorem Sound.grantHigh {s : State} (h : Sound s) {n : Nat} {rest : List Nat} (hl : s.high = n :: rest) : Sound (s.grantNode n .high) := by
  have hnd := h.table.nodes_nodup
  obtain ⟨x, hx, rfl, hw⟩ := h.books.high.2.1 n (by rw [show s.desk.high = s.high from rfl, hl]; exact List.mem_cons_self)
  obtain ⟨hm, hs, r, ho⟩ := h.books.waiting_high hx hw
  rw [State.grantNode_eq (h.table.turbine?_of_mem hx) .high]
  obtain ⟨f1, f2, f3, f4, f5, f6⟩ := s.granting_fields x .high (x.live.target.getD 0) (s.ownerSet x.live.owner)
  have hd : (((s.dequeue .high).framed x .high (x.live.target.getD 0) (s.ownerSet x.live.owner)).takeSlot .high).desk =
      ⟨rest, s.low, s.retargets, s.lowSlots, s.highSlots + 1⟩ := by rw [← show s.high.tail = rest by rw [hl]; rfl]; rfl
  refine Sound.tellGranted (h.live_change f1 f2 f3 f4 f5 ?_) _
  have hnodup := h.books.high.1
  rw [show s.desk.high = s.high from rfl, hl] at hnodup
  rw [f6, hd]
  refine h.books.change hnd hx (handled_moving ho (h.books.aims hx ho) rfl rfl) (Transfers.refl _ _)
    (fun o e => ?_) ?_ ?_ (h.books.low_stands hnd hx ?_) ?_ (h.books.retargets_stand hnd hx ?_)
  · obtain ⟨hr, a, ha, hp⟩ := h.books.owners x hx o e
    exact ⟨hr, a, ha, hp.imp id fun hp => ⟨hp.1, by simp [Live.granted]⟩⟩
  · simp [hs, Live.granted, State.desk]
  · simp [hs, Live.granted, State.desk]
  · simp [Turbine.waitsLow, Live.granted, hm, ho]
  · rw [show s.desk.high = s.high from rfl, hl]
    exact Restands.tail hnodup
  · simp [Turbine.retargeting, Live.granted, hm]

/-- A turbine in RETARGET is in a HIGH slot for a neutral step (R122). -/
theorem Books.retargeted {acc : Owner → Option Account} {T : List Turbine} {d : Desk} (h : Books acc T d) {x : Turbine} (hx : x ∈ T)
    (hm : x.live.move = .retarget) : x.live.slot = some .high ∧ ∃ r, x.live.owner = some (.neutral r) := by
  rcases Turbine.handled_iff.1 (h.handled x hx) with ⟨hi, -⟩ | ⟨o, ho, -, ⟨hi, -⟩ | ⟨hi, -⟩ | ⟨-, hs, r, rfl⟩⟩
  · rw [hm] at hi; cases hi
  · rw [hm] at hi; cases hi
  · rw [hm] at hi; cases hi
  · exact ⟨hs, r, ho⟩

/-- A MOVING turbine is in a slot of its owner's class (R123). -/
theorem Books.moving {acc : Owner → Option Account} {T : List Turbine} {d : Desk} (h : Books acc T d) {x : Turbine} (hx : x ∈ T)
    (hm : x.live.move = .moving) : ∃ o, x.live.owner = some o ∧ x.live.slot = some o.slotClass := by
  rcases Turbine.handled_iff.1 (h.handled x hx) with ⟨hi, -⟩ | ⟨o, ho, -, ⟨hi, -⟩ | ⟨-, hs⟩ | ⟨hi, -⟩⟩
  · rw [hm] at hi; cases hi
  · rw [hm] at hi; cases hi
  · exact ⟨o, ho, hs⟩
  · rw [hm] at hi; cases hi

theorem Sound.retargetNode {s : State} (h : Sound s) {n : Nat} {rest : List Nat} (hl : s.retargets = n :: rest) :
    Sound (s.retargetNode n) := by
  have hnd := h.table.nodes_nodup
  obtain ⟨x, hx, rfl, hw⟩ := h.books.retargets.2.1 n (by rw [show s.desk.retargets = s.retargets from rfl, hl]; exact List.mem_cons_self)
  have hm : x.live.move = .retarget := by simpa [Turbine.retargeting] using hw
  obtain ⟨hs, r, ho⟩ := h.books.retargeted hx hm
  rw [State.retargetNode_eq (h.table.turbine?_of_mem hx), hl]
  refine h.live_change ((State.framed_layout _ _ _ _ _).trans rfl) rfl rfl rfl rfl ?_
  have hnodup := h.books.retargets.1
  rw [show s.desk.retargets = s.retargets from rfl, hl] at hnodup
  rw [State.framed_turbines, State.framed_desk]
  refine h.books.change hnd hx (handled_moving ho (h.books.aims hx ho) rfl rfl) (Transfers.refl _ _)
    (fun o e => ?_) ?_ ?_ (h.books.low_stands hnd hx ?_) (h.books.high_stands hnd hx ?_) ?_
  · obtain ⟨hr, a, ha, hp⟩ := h.books.owners x hx o e
    exact ⟨hr, a, ha, hp.imp id fun hp => ⟨hp.1, by simp [Live.granted]⟩⟩
  · simp [hs, Live.granted, State.desk]
  · simp [hs, Live.granted, State.desk]
  · simp [Turbine.waitsLow, Live.granted, hm]
  · simp [Turbine.waitsHigh, Live.granted, hm]
  · rw [show s.desk.retargets = s.retargets from rfl, hl]
    exact Restands.tail hnodup

theorem Sound.arbiterStep {s t : State} (h : Sound s) (e : s.arbiterStep = some t) : Sound t := by
  unfold State.arbiterStep at e
  split at e
  · rename_i n rest hl
    split at e
    · cases e
    · cases e; exact h.retargetNode hl
  · obtain ⟨⟨n, c⟩, hg, rfl⟩ := Option.map_eq_some_iff.1 e
    unfold State.grantable at hg
    split at hg
    · cases hg
    · split at hg
      · rename_i hl
        split at hg
        · cases hg; exact h.grantHigh hl
        · cases hg
      · rename_i hl
        split at hg
        · cases hg; exact h.grantLow hl
        · cases hg
      · cases hg

theorem Sound.arbiterLoop (fuel : Nat) {s : State} (h : Sound s) : Sound (State.arbiterLoop fuel s) := by
  induction fuel generalizing s with
  | zero => exact h
  | succ fuel ih =>
    unfold State.arbiterLoop
    split
    · rename_i e; exact ih (h.arbiterStep e)
    · exact h

theorem Sound.serveArbiter {s : State} (h : Sound s) : Sound s.serveArbiter := h.arbiterLoop _

end Sys2Proof.Machine

/-! The freeing of slots keeps the invariant (R133 to R135). -/

namespace Sys2Proof.Machine

/-! ### Changes that the books do not see -/

/-- The ledger carries the invariant. -/
theorem Sound.of_ledger {s t : State} (e : t.ledger = s.ledger) (h : Sound s) : Sound t := by
  have hl := layout_of_ledger e
  simp only [State.ledger, Ledger.mk.injEq] at e
  obtain ⟨e1, -, -, -, -, -, e7, e8, e9, e10, e11, e12, e13, e14, e15⟩ := e
  refine h.live_change hl e8 e7 e9 e15 ?_
  have hd : t.desk = s.desk := by simp only [State.desk, e10, e11, e12, e13, e14]
  rw [e1, hd]
  exact h.books

theorem Turbine.handled_congr {t : Turbine} {l : Live} (h : l.books = t.live.books) : Turbine.handled { t with live := l } ↔ t.handled := by
  simp only [Live.books, Prod.mk.injEq] at h
  simp only [Turbine.handled, h]

/-- A change of the records that keeps what the books read of each. -/
theorem Books.relive_books {acc : Owner → Option Account} {T : List Turbine} {d : Desk} (h : Books acc T d) {g : Turbine → Live}
    (hg : ∀ t, (g t).books = t.live.books) : Books acc (T.map fun t => { t with live := g t }) d := by
  have hb : ∀ t, (g t).move = t.live.move ∧ (g t).slot = t.live.slot ∧ (g t).owner = t.live.owner ∧ (g t).target = t.live.target :=
    fun t => by simpa [Live.books] using hg t
  have hnamed : ∀ {l : List Nat} {waits : Turbine → Bool}, (∀ t, waits { t with live := g t } = waits t) → Named T l waits →
      Named (T.map fun t => { t with live := g t }) l waits := by
    intro l waits hw hl
    refine ⟨hl.1, fun n hn => ?_, fun y hy hwy => ?_⟩
    · obtain ⟨x, hx, e, w⟩ := hl.2.1 n hn
      exact ⟨_, List.mem_map_of_mem hx, e, (hw x).trans w⟩
    · obtain ⟨x, hx, rfl⟩ := List.mem_map.1 hy
      exact hl.2.2 x hx ((hw x).symm.trans hwy)
  have hcount : ∀ p : Live → Bool, (∀ t : Turbine, p (g t) = p t.live) →
      (T.map fun t => { t with live := g t }).countP (fun x => p x.live) = T.countP fun x => p x.live := fun p hp => by
    rw [List.countP_map]
    exact List.countP_congr fun x _ => by simp [hp]
  constructor
  · intro y hy
    obtain ⟨x, hx, rfl⟩ := List.mem_map.1 hy
    exact (Turbine.handled_congr (hg x)).2 (h.handled x hx)
  · intro y hy o ho
    obtain ⟨x, hx, rfl⟩ := List.mem_map.1 hy
    dsimp only at ho ⊢
    rw [(hb x).2.2.1] at ho
    rw [(hb x).1]
    exact h.owners x hx o ho
  · intro o a ha hp
    rw [h.counts o a ha hp, ownedIn, ownedIn, hcount (fun l => l.owner == some o) fun t => by simp [hb]]
  · rw [h.lowSlots, hcount (fun l => l.slot == some .low) fun t => by simp [hb]]
  · rw [h.highSlots, hcount (fun l => l.slot == some .high) fun t => by simp [hb]]
  · exact hnamed (fun t => by simp [Turbine.waitsLow, hb]) h.low
  · exact hnamed (fun t => by simp [Turbine.waitsHigh, hb]) h.high
  · exact hnamed (fun t => by simp [Turbine.retargeting, hb]) h.retargets

theorem Sound.live {s : State} (h : Sound s) {g : Turbine → Live} (hg : ∀ t, (g t).books = t.live.books) :
    Sound { s with turbines := s.turbines.map fun t => { t with live := g t } } :=
  h.live_change (by simp only [State.layout, List.map_map, Function.comp_def]; rfl) rfl rfl rfl rfl (h.books.relive_books hg)

theorem Sound.updLive {s : State} (h : Sound s) (n : Nat) {g : Live → Live} (hg : ∀ l, (g l).books = l.books) : Sound (s.updLive n g) := by
  rw [State.updLive_eq]
  refine h.live fun t => ?_
  split
  · exact hg _
  · rfl

/-! ### The judgement of the neutral context -/

/-- The neutral context is judged where the rest of the invariant holds (R151). -/
theorem Core.judgeNeutral {s : State} (h : Core s) (apart : Apart s.account)
    (pass : s.mode = .pass → s.waves = [] ∧ s.neutral.steps = []) (returning : s.mode = .returning → s.waves = []) :
    Sound s.judgeNeutral := by
  unfold State.judgeNeutral
  split
  · rename_i hall
    have hdone : ∀ k ∈ s.neutral.steps, k.state = .done := by simpa using hall
    have hlow : ∀ n r, ({ s with neutral := {} } : State).account (.low n r) = s.account (.low n r) := fun _ _ => rfl
    have hnone : ∀ r, ({ s with neutral := {} } : State).account (.neutral r) = none := fun _ => rfl
    have ht : Tames s.account ({ s with neutral := {} } : State).account := fun n r => by rw [hlow]; exact ⟨id, id⟩
    have hcore : Core ({ s with neutral := {} } : State) :=
      h.change rfl rfl (Shaped.of_waves rfl) ⟨.nil, by simp⟩ ht (h.books.accounts fun o => by
        cases o with
        | low n r => exact .same (hlow n r)
        | neutral r =>
          refine .unowned (h.books.unowned fun hb => ?_) (by rw [hnone]; intro x hx; cases hx)
          obtain ⟨k, hk, -, hd⟩ := (busy_neutral_iff h.rows.nodup).1 hb
          exact hd (hdone k hk))
    exact
      { toCore := hcore
        apart := fun n r hn => by
          rw [hnone] at hn
          obtain ⟨x, hx, -⟩ := hn
          cases hx
        judged := ⟨fun e => (by cases e), fun _ => rfl⟩
        pass := fun e => ⟨(pass e).1, rfl⟩
        returning := returning }
  · rename_i hall
    have hlive : ∃ k ∈ s.neutral.steps, k.state ≠ .done := by simpa using hall
    have hacc : ({ s with neutral := { s.neutral with active := true } } : State).account = s.account := by
      funext o; cases o <;> rfl
    have hcore : Core ({ s with neutral := { s.neutral with active := true } } : State) :=
      h.change rfl rfl (Shaped.of_waves rfl) h.rows (hacc ▸ Tames.refl _) (hacc ▸ h.books)
    exact
      { toCore := hcore
        apart := hacc ▸ apart
        judged := ⟨fun _ => hlive, fun e => by cases e⟩
        pass := fun e => by
          obtain ⟨k, hk, -⟩ := hlive
          rw [(pass e).2] at hk
          cases hk
        returning := returning }

/-! ### Freeing a slot -/

/-- The state in which the owner of a turbine is told of its freed slot: the turbine is IDLE, off the retarget list, and its slot is given
back. -/
def State.vacated (s : State) (x : Turbine) (c : SlotClass) : State :=
  ((State.withdraw { s with retargets := s.retargets.filter fun n => n != x.node } (.deadline x.node)).updLive x.node Live.toIdle).giveSlot c

theorem State.freeSlot_eq {s : State} {x : Turbine} (hx : s.turbine? x.node = some x) {c : SlotClass} (hc : x.live.slot = some c)
    (k : FreeKind) : State.freeSlot { s with retargets := s.retargets.filter fun n => n != x.node } x.node k =
      (s.vacated x c).tellFreed x.live.owner k := by
  unfold State.freeSlot
  have hx' : State.turbine? { s with retargets := s.retargets.filter fun n => n != x.node } x.node = some x := hx
  rw [hx']
  simp only [hc]
  rfl

theorem Turbine.waitsLow_of_not_queued {x : Turbine} (h : x.live.move ≠ .queued) : x.waitsLow = false := by
  cases hm : x.live.move <;> simp [Turbine.waitsLow, hm] at h ⊢

theorem Turbine.waitsHigh_of_not_queued {x : Turbine} (h : x.live.move ≠ .queued) : x.waitsHigh = false := by
  cases hm : x.live.move <;> simp [Turbine.waitsHigh, hm] at h ⊢

/-- The desk once a slot of a class is given back. -/
def Desk.give (d : Desk) (n : Nat) (c : SlotClass) : Desk :=
  { d with
    retargets := d.retargets.filter fun m => m != n
    lowSlots := match c with | .low => d.lowSlots - 1 | .high => d.lowSlots
    highSlots := match c with | .low => d.highSlots | .high => d.highSlots - 1 }

theorem State.vacated_fields (s : State) (x : Turbine) (c : SlotClass) :
    (s.vacated x c).layout = s.layout ∧ (s.vacated x c).waveCounter = s.waveCounter ∧ (s.vacated x c).waves = s.waves ∧
      (s.vacated x c).neutral = s.neutral ∧ (s.vacated x c).mode = s.mode ∧
      (s.vacated x c).turbines = relive x.node Live.toIdle s.turbines ∧ (s.vacated x c).desk = s.desk.give x.node c := by
  refine ⟨(layout_updLive (State.withdraw { s with retargets := _ } _) x.node Live.toIdle).trans rfl, ?_⟩
  have ht : (s.vacated x c).turbines = relive x.node Live.toIdle s.turbines := rfl
  rw [ht]
  cases c <;>
    simp only [State.vacated, State.giveSlot, State.updLive, State.withdraw, State.desk, Desk.give, and_self]

/-- A turbine that holds a slot becomes IDLE, and its owner counts it. -/
theorem Books.free {acc : Owner → Option Account} {T : List Turbine} {d : Desk} (h : Books acc T d)
    (hn : (T.map fun t => t.node).Nodup) {x : Turbine} (hx : x ∈ T) {o : Owner} (ho : x.live.owner = some o) {c : SlotClass}
    (hc : x.live.slot = some c) : Books (revise o (Account.count 1) acc) (relive x.node Live.toIdle T) (d.give x.node c) := by
  have hm : x.live.move ≠ .queued := by
    rcases Turbine.handled_iff.1 (h.handled x hx) with ⟨hi, -⟩ | ⟨o, -, -, ⟨-, hs⟩ | ⟨hi, -⟩ | ⟨hi, -⟩⟩
    · simp [hi]
    · rw [hc] at hs; cases hs
    · simp [hi]
    · simp [hi]
  have hpos : ∀ c', x.live.slot = some c' → 0 < T.countP fun y => y.live.slot == some c' := fun c' hc' =>
    List.countP_pos_iff.2 ⟨x, hx, by simp [hc']⟩
  refine h.change hn hx (handled_idle rfl rfl rfl) (ho ▸ transfers_count acc o) (fun p hp => by cases hp) ?_ ?_
    (h.low_stands hn hx ?_) (h.high_stands hn hx ?_) ?_
  · cases c
    · have := hpos .low hc
      rw [← h.lowSlots] at this
      simp only [Desk.give, hc, Live.toIdle]
      simp
      omega
    · simp [Desk.give, hc, Live.toIdle]
  · cases c
    · simp [Desk.give, hc, Live.toIdle]
    · have := hpos .high hc
      rw [← h.highSlots] at this
      simp only [Desk.give, hc, Live.toIdle]
      simp
      omega
  · rw [Turbine.waitsLow_of_not_queued hm]; rfl
  · rw [Turbine.waitsHigh_of_not_queued hm]; rfl
  · exact Restands.filter h.retargets.1

end Sys2Proof.Machine

/-! What the owner of a freed slot makes of it, and what follows a report and a stalled move (R94, R133 to R136, R155). -/

namespace Sys2Proof.Machine

/-- A freed turbine is counted by its step. -/
def WaveStep.countFreed (k : FreeKind) (x : WaveStep) : WaveStep :=
  match k with
  | .settled => { x with settled := x.settled + 1 }
  | .faulted => { x with faulted := x.faulted + 1 }
  | .stalled => { x with stalled := x.stalled + 1 }

/-- A freed turbine is counted by its neutral step. -/
def NeutralStep.countFreed (k : FreeKind) (x : NeutralStep) : NeutralStep :=
  match k with
  | .settled => { x with settled := x.settled + 1 }
  | .faulted => { x with faulted := x.faulted + 1 }
  | .stalled => { x with stalled := x.stalled + 1 }

/-- A neutral step that counts a freed turbine enters DONE when it is MOVING and complete (R155). -/
def NeutralStep.freed (k : FreeKind) (x : NeutralStep) : NeutralStep :=
  if (x.countFreed k).state = .moving ∧ (x.countFreed k).complete = true then { x.countFreed k with state := .done } else x.countFreed k

theorem WaveStep.countFreed_row (k : FreeKind) (x : WaveStep) : (x.countFreed k).row = x.row := by cases k <;> rfl

theorem WaveStep.countFreed_account (k : FreeKind) (x : WaveStep) : (x.countFreed k).account = x.account.count 1 := by
  cases k <;> simp [WaveStep.countFreed, WaveStep.account, Account.count] <;> omega

theorem NeutralStep.countFreed_account (k : FreeKind) (x : NeutralStep) : (x.countFreed k).account = x.account.count 1 := by
  cases k <;> simp [NeutralStep.countFreed, NeutralStep.account, Account.count] <;> omega

theorem NeutralStep.freed_row (k : FreeKind) (x : NeutralStep) : (x.freed k).row = x.row := by
  unfold NeutralStep.freed
  split <;> cases k <;> rfl

theorem NeutralStep.complete_iff (x : NeutralStep) : x.complete = true ↔ x.account.needed = x.account.counted := by
  simp [NeutralStep.complete, NeutralStep.account]

theorem WaveStep.complete_iff (x : WaveStep) : x.complete = true ↔ x.account.needed = x.account.counted := by
  simp [WaveStep.complete, WaveStep.account]

theorem NeutralStep.moving_iff (x : NeutralStep) : x.state = .moving ↔ x.account.phase = .moving := by
  cases h : x.state <;> simp [NeutralStep.account, NeutralState.phase, h]

/-- An account that counts a freed turbine. -/
def Account.freed (a : Account) : Account :=
  if (a.count 1).phase = .moving ∧ (a.count 1).needed = (a.count 1).counted then (a.count 1).close else a.count 1

theorem NeutralStep.freed_account (k : FreeKind) (x : NeutralStep) : (x.freed k).account = x.account.freed := by
  have hiff : ((x.countFreed k).state = .moving ∧ (x.countFreed k).complete = true) ↔
      (x.account.count 1).phase = .moving ∧ (x.account.count 1).needed = (x.account.count 1).counted := by
    rw [← x.countFreed_account k, NeutralStep.moving_iff, NeutralStep.complete_iff]
  unfold NeutralStep.freed Account.freed
  rw [← x.countFreed_account k] at hiff ⊢
  by_cases hc : (x.countFreed k).state = .moving ∧ (x.countFreed k).complete = true
  · rw [if_pos hc, if_pos (hiff.1 hc)]; rfl
  · rw [if_neg hc, if_neg fun e => hc (hiff.2 e)]

theorem State.freedLow_eq (s : State) (n r : Nat) (k : FreeKind) : s.freedLow n r k =
    match (s.updStep n r (WaveStep.countFreed k)).step? n r with
    | some st => if st.state = .moving ∧ st.complete = true then ((s.updStep n r (WaveStep.countFreed k)).enterDone n r).completeWaves
      else s.updStep n r (WaveStep.countFreed k)
    | none => s.updStep n r (WaveStep.countFreed k) := by
  cases k <;> rfl

theorem State.freedNeutral_eq (s : State) (r : Nat) (k : FreeKind) : s.freedNeutral r k = (s.updNeutral r (NeutralStep.freed k)).judgeNeutral := by
  cases k <;> rfl

/-- A MOVING account that is complete owns nothing (R94). -/
theorem Books.unowned_of_complete {acc : Owner → Option Account} {T : List Turbine} {d : Desk} (h : Books acc T d) {o : Owner} {a : Account}
    (ha : acc o = some a) (hp : a.phase = .moving) (hc : a.needed = a.counted) : ownedIn T o = 0 := by
  have := h.counts o a ha (by rw [hp]; simp)
  omega

/-- Counting alone keeps the order. -/
theorem tames_count (acc : Owner → Option Account) (o : Owner) (k : Nat) : Tames acc (revise o (Account.count k) acc) :=
  tames_revise (fun _ _ hp => hp) fun _ _ hp => hp

section Freed
variable {s : State} (h : Sound s) {x : Turbine} (hx : x ∈ s.turbines) {c : SlotClass} (hc : x.live.slot = some c) (k : FreeKind)
include h hx hc

theorem Sound.vacated_low {n r : Nat} (ho : x.live.owner = some (.low n r)) :
    Sound ((s.vacated x c).updStep n r (WaveStep.countFreed k)) := by
  obtain ⟨f1, f2, f3, f4, f5, f6, f7⟩ := s.vacated_fields x c
  have hacc0 : (s.vacated x c).account = s.account := account_congr f3 f4
  have hacc : ((s.vacated x c).updStep n r (WaveStep.countFreed k)).account = revise (.low n r) (Account.count 1) s.account := by
    rw [account_updStep _ n r (WaveStep.countFreed_row k) fun st _ => WaveStep.countFreed_account k st, hacc0]
  have hshape : Shaped s ((s.vacated x c).updStep n r (WaveStep.countFreed k)) :=
    (Shaped.of_waves f3).trans (Shaped.updStep _ n r (WaveStep.countFreed_row k))
  have hbooks := h.books.free h.table.nodes_nodup hx ho hc
  have hw : WavesOnly (s.vacated x c) ((s.vacated x c).updStep n r (WaveStep.countFreed k)) := WavesOnly.updStep _ n r _
  have hneutral := hw.neutral.trans f4
  have hcore : Core ((s.vacated x c).updStep n r (WaveStep.countFreed k)) := by
    refine h.toCore.change (hw.layout.trans f1) (hw.waveCounter.trans f2) hshape (by rw [hneutral]; exact h.rows)
      (hacc ▸ tames_count _ _ 1) ?_
    rw [hacc, hw.turbines, f6, hw.desk, f7]
    exact hbooks
  refine h.change hcore hshape (hacc ▸ tames_count _ _ 1) (fun q hb => ?_) ?_ (hw.mode.trans f5) fun e => ?_
  · rw [hacc, revise_ne (by simp)] at hb; exact hb
  · rw [hneutral]; exact h.judged
  · rw [hneutral]; exact e

theorem Sound.freed_low {n r : Nat} (ho : x.live.owner = some (.low n r)) : Sound ((s.vacated x c).freedLow n r k) := by
  have hv := h.vacated_low hx hc k ho
  rw [State.freedLow_eq]
  split
  · rename_i st hst
    split
    · rename_i hcomp
      have hacc : ((s.vacated x c).updStep n r (WaveStep.countFreed k)).account (.low n r) = some st.account := by
        rw [State.account, hst]; rfl
      refine (hv.enterDone (hv.books.unowned_of_complete hacc ?_ ((WaveStep.complete_iff st).1 hcomp.2))).completeWaves
      simp [WaveStep.account, StepState.phase, hcomp.1]
    · exact hv
  · exact hv

theorem Sound.freed_neutral {r : Nat} (ho : x.live.owner = some (.neutral r)) : Sound ((s.vacated x c).freedNeutral r k) := by
  obtain ⟨f1, f2, f3, f4, f5, f6, f7⟩ := s.vacated_fields x c
  have hacc0 : (s.vacated x c).account = s.account := account_congr f3 f4
  have hacc : ((s.vacated x c).updNeutral r (NeutralStep.freed k)).account = revise (.neutral r) Account.freed s.account := by
    rw [account_updNeutral _ r (NeutralStep.freed_row k) fun y _ => NeutralStep.freed_account k y, hacc0]
  have hshape : Shaped s ((s.vacated x c).updNeutral r (NeutralStep.freed k)) := Shaped.of_waves f3
  have hlow : ∀ n q, ((s.vacated x c).updNeutral r (NeutralStep.freed k)).account (.low n q) = s.account (.low n q) := fun n q => by
    rw [hacc, revise_ne (by simp)]
  have hrows : NeutralRows ((s.vacated x c).updNeutral r (NeutralStep.freed k)).neutral.steps :=
    neutralRows_updNeutral (by rw [f4]; exact h.rows) r (NeutralStep.freed_row k)
  have hbooks : Books (revise (.neutral r) Account.freed s.account) (relive x.node Live.toIdle s.turbines) (s.desk.give x.node c) := by
    have hb := h.books.free h.table.nodes_nodup hx ho hc
    refine hb.accounts fun o => ?_
    by_cases e : o = .neutral r
    · subst e
      rw [revise_self, revise_self]
      cases ha : s.account (.neutral r) with
      | none => exact .same rfl
      | some a =>
        by_cases hcomp : (a.count 1).phase = .moving ∧ (a.count 1).needed = (a.count 1).counted
        · refine .unowned (hb.unowned_of_complete (by rw [revise_self, ha]; rfl) hcomp.1 hcomp.2) fun y hy => .inl ?_
          have : Account.freed a = (a.count 1).close := if_pos hcomp
          simp only [Option.map_some, this, Option.mem_def, Option.some.injEq] at hy
          rw [← hy]; rfl
        · exact .same (by simp only [Option.map_some]; rw [show Account.freed a = a.count 1 from if_neg hcomp])
    · exact .same (by rw [revise_ne e, revise_ne e])
  have hcore : Core ((s.vacated x c).updNeutral r (NeutralStep.freed k)) := by
    have f6' : ((s.vacated x c).updNeutral r (NeutralStep.freed k)).turbines = _ := f6
    have f7' : ((s.vacated x c).updNeutral r (NeutralStep.freed k)).desk = _ := f7
    refine h.toCore.change (by exact f1) (by exact f2) hshape hrows (fun n q => by rw [hlow]; exact ⟨id, id⟩) ?_
    rw [hacc, f6', f7']
    exact hbooks
  rw [State.freedNeutral_eq]
  refine hcore.judgeNeutral (fun n q hb => ?_) (fun e => ?_) fun e => ?_
  · rw [hlow]
    refine h.apart n q ?_
    rw [hacc] at hb
    by_cases eq : q = r
    · subst eq
      rw [revise_self] at hb
      obtain ⟨y, hy, hp⟩ := hb
      obtain ⟨a, ha, rfl⟩ := Option.map_eq_some_iff.1 (Option.mem_def.1 hy)
      refine ⟨a, ha, ?_⟩
      unfold Account.freed at hp
      split at hp
      · rcases hp with hp | hp <;> cases hp
      · exact hp
    · rwa [revise_ne (by simpa using eq)] at hb
  · have hp := h.pass (by rw [← f5]; exact e)
    refine ⟨hshape.nil hp.1, ?_⟩
    rw [State.updNeutral, f4, h.judged.idle hp.2]
    rfl
  · exact hshape.nil (h.returning (by rw [← f5]; exact e))

theorem Sound.freeSlot (hm : x.live.owner.isSome = true) :
    Sound (State.freeSlot { s with retargets := s.retargets.filter fun n => n != x.node } x.node k) := by
  rw [State.freeSlot_eq (h.table.turbine?_of_mem hx) hc]
  unfold State.tellFreed
  split
  · rename_i n r ho; exact h.freed_low hx hc k ho
  · rename_i r ho; exact h.freed_neutral hx hc k ho
  · rename_i ho; rw [ho] at hm; cases hm

end Freed

/-- A MOVING turbine's slot is freed (R133 to R135). -/
theorem Sound.free_moving {s : State} (h : Sound s) {x : Turbine} (hx : x ∈ s.turbines) (hm : x.live.move = .moving) (k : FreeKind) :
    Sound (s.freeSlot x.node k) := by
  obtain ⟨o, ho, hs⟩ := h.books.moving hx hm
  have hnot : x.node ∉ s.retargets := fun hr => by
    have := (h.books.retargets.mem_iff h.table.nodes_nodup hx).1 hr
    simp [Turbine.retargeting, hm] at this
  have hfilter : (s.retargets.filter fun n => n != x.node) = s.retargets :=
    List.filter_eq_self.2 fun n hn => by simpa using fun e : n = x.node => hnot (e ▸ hn)
  have := h.freeSlot hx hs k (by simp [ho])
  rwa [hfilter] at this

theorem Sound.movedLow {s : State} (h : Sound s) (n r : Nat) : Sound (s.movedLow n r) :=
  (Settling.updStep_same s n r (fun x => by split <;> rfl) fun x _ => by split <;> rfl).sound h

theorem Sound.arbiterReport {s : State} (h : Sound s) {x : Turbine} (hx : s.turbine? x.node = some x) : Sound (s.arbiterReport x) := by
  obtain ⟨hx, -⟩ := State.turbine?_mem hx
  unfold State.arbiterReport
  split
  · rename_i hm _; exact h.free_moving hx hm _
  · rename_i hm _; exact h.free_moving hx hm _
  · unfold State.tellMoved
    split
    · exact h.movedLow _ _
    · exact h
    · exact h
  · rename_i hm _
    obtain ⟨hs, r, ho⟩ := h.books.retargeted hx hm
    exact h.freeSlot hx hs _ (by simp [ho])
  all_goals exact h

theorem Sound.stall {s : State} (h : Sound s) {x : Turbine} (hx : s.turbine? x.node = some x) (hm : x.live.move = .moving) :
    Sound (s.stall x) := by
  have h1 := h.free_moving (State.turbine?_mem hx).1 hm .stalled
  have h2 := h1.updLive x.node (g := fun l => { l with stalled := true }) fun _ => rfl
  exact Sound.of_ledger (s := ((s.freeSlot x.node .stalled).updLive x.node fun l => { l with stalled := true })) rfl h2

end Sys2Proof.Machine

/-! The release of a step keeps the invariant (R82, R88 to R90). -/

namespace Sys2Proof.Machine

/-! ### What the release conditions say of the accounts -/

/-- The wave found at a number stands behind the waves of other numbers. -/
theorem State.waves_split {s : State} {n : Nat} {w : Wave} (h : s.wave? n = some w) :
    ∃ post, s.waves = (s.waves.takeWhile fun x => x.num != n) ++ w :: post := by
  unfold State.wave? at h
  generalize s.waves = l at h ⊢
  induction l with
  | nil => cases h
  | cons a l ih =>
    rw [List.find?_cons] at h
    by_cases e : a.num = n
    · have hb : (a.num == n) = true := by simp [e]
      rw [hb] at h
      cases h
      exact ⟨l, by simp [e]⟩
    · have hb : (a.num == n) = false := by simp [e]
      rw [hb] at h
      obtain ⟨post, hp⟩ := ih h
      refine ⟨post, ?_⟩
      rw [List.takeWhile_cons_of_pos (by simp [e]), List.cons_append, ← hp]

/-- The waves older than the one with a number have ended their steps at a row. -/
def OlderEnded (nums : List Nat) (acc : Owner → Option Account) (n r : Nat) : Prop :=
  nums.Pairwise fun o y => y = n → Ended (acc (.low o r))

/-- A free row: no other step there is busy, and every older wave's step there has ended (R83). -/
theorem Core.rowFree {s : State} (h : Core s) {n r : Nat} {w : Wave} (hw : s.wave? n = some w) (hf : s.rowFree n r = true)
    (hne : ¬Ended (s.account (.low n r))) :
    OlderEnded (s.waves.map fun w => w.num) s.account n r ∧ ∀ o : Owner, o.row = r → o ≠ .low n r → ¬Busy (s.account o) := by
  obtain ⟨post, hsplit⟩ := State.waves_split hw
  obtain ⟨hwm, rfl⟩ := State.wave?_mem hw
  set pre := s.waves.takeWhile fun x => x.num != w.num with hpre
  simp only [State.rowFree, Bool.and_eq_true, List.all_eq_true] at hf
  obtain ⟨hlow, hneu⟩ := hf
  have hold : ∀ x ∈ pre, Ended (s.account (.low x.num r)) := fun x hx => by
    have hxs : x ∈ s.waves := by rw [hsplit]; exact List.mem_append_left _ hx
    refine (ended_low_iff h.waves hxs).2 fun st hst e => ?_
    have := hlow x hx st hst
    simpa [e] using this
  have hnd := h.waves.nums_nodup
  have hord := h.ordered
  rw [hsplit, List.map_append, List.map_cons, List.nodup_append] at hnd
  rw [Ordered, hsplit, List.map_append, List.map_cons, List.pairwise_append] at hord
  obtain ⟨-, hnd2, hdis⟩ := hnd
  rw [List.nodup_cons] at hnd2
  refine ⟨?_, fun o hr hno hb => ?_⟩
  · rw [OlderEnded, hsplit, List.map_append, List.map_cons, List.pairwise_append]
    refine ⟨List.pairwise_of_forall_mem_list fun a _ b hb e => ?_, List.pairwise_cons.2 ⟨fun b hb e => ?_,
      List.pairwise_of_forall_mem_list fun a _ b hb e => ?_⟩, fun a ha b _ _ => ?_⟩
    · exact absurd e (hdis b hb w.num List.mem_cons_self)
    · exact absurd (e ▸ hb) hnd2.1
    · exact absurd (e ▸ hb) hnd2.1
    · obtain ⟨x, hx, rfl⟩ := List.mem_map.1 ha
      exact hold x hx
  · cases o with
    | neutral q =>
      obtain rfl : q = r := hr
      obtain ⟨k, hk, e, hd⟩ := (busy_neutral_iff h.rows.nodup).1 hb
      have := hneu k hk
      simp [e, hd] at this
    | low m q =>
      obtain rfl : q = r := hr
      obtain ⟨a, ha, hp⟩ := hb
      obtain ⟨x, hx, rfl, -⟩ := (account_low_eq_some h.waves).1 ha
      rw [hsplit] at hx
      rcases List.mem_append.1 hx with hx | hx
      · exact (hold x hx).not_busy ⟨a, ha, hp⟩
      · rcases List.mem_cons.1 hx with rfl | hx
        · exact hno rfl
        · exact hne ((List.pairwise_cons.1 hord.2.1).1 x.num (List.mem_map_of_mem hx) q ⟨a, ha, hp⟩)

/-- The release conditions: the step is HOLDING and its row is free (R82). -/
theorem State.canRelease_holding {s : State} {n r : Nat} (h : s.canRelease n r = true) :
    ∃ w st, s.wave? n = some w ∧ w.step? r = some st ∧ st.state = .holding ∧ s.rowFree n r = true := by
  unfold State.canRelease at h
  split at h
  · cases h
  · rename_i w hw
    rw [Bool.and_eq_true] at h
    obtain ⟨-, h⟩ := h
    split at h
    · cases h
    · rename_i st hst
      simp only [Bool.and_eq_true, beq_iff_eq] at h
      exact ⟨w, st, hw, hst, h.1.1.1.1.1, h.1.1.2⟩

/-! ### The members of a released step -/

/-- A member that is needed and counted at once. -/
def Account.atOnce (a : Account) : Account := (a.need 1).count 1

/-- What a release does to one member (R89): nothing, counted at once, or queued. -/
theorem State.releaseMember_cases (ts : List (Nat × Int)) (n r : Nat) (s : State) (node : Nat) :
    State.releaseMember ts n r s node = s ∨
      (∃ g : WaveStep → WaveStep, (∀ x, (g x).row = x.row) ∧ (∀ x, (g x).account = x.account.atOnce) ∧
        State.releaseMember ts n r s node = s.updStep n r g) ∨
      ∃ g : Int, (∃ x, s.turbine? node = some x) ∧ State.releaseMember ts n r s node = (s.updStep n r fun x => { x with needed := x.needed + 1 }).queueLow n r node g := by
  unfold State.releaseMember
  split
  · exact .inl rfl
  · split
    · exact .inl rfl
    · rename_i t ht
      split
      · refine .inr (.inl ⟨fun x => { x with needed := x.needed + 1, faulted := x.faulted + 1 }, fun _ => rfl, fun x => ?_, rfl⟩)
        simp only [WaveStep.account, Account.atOnce, Account.need, Account.count, Account.mk.injEq, true_and]
        omega
      · split
        · exact .inr (.inr ⟨_, ⟨t, ht⟩, rfl⟩)
        · refine .inr (.inl ⟨fun x => { x with needed := x.needed + 1, settled := x.settled + 1 }, fun _ => rfl, fun x => ?_, rfl⟩)
          simp only [WaveStep.account, Account.atOnce, Account.need, Account.count, Account.mk.injEq, true_and]
          omega

/-- A state on the way of the release of a step from `s`, with the members in `rest` still to be handled: the books stand as if the step were
RELEASING already, and every turbine that it owns is QUEUED. -/
structure OnRelease (s : State) (n r : Nat) (rest : List Nat) (u : State) : Prop where
  layout : u.layout = s.layout
  counter : u.waveCounter = s.waveCounter
  shaped : Shaped s u
  neutral : u.neutral = s.neutral
  mode : u.mode = s.mode
  accounts : ∀ o, o ≠ .low n r → u.account o = s.account o
  books : Books (revise (.low n r) (Account.enter .releasing) u.account) u.turbines u.desk
  found : ∃ a, u.account (.low n r) = some a
  queued : ∀ x ∈ u.turbines, x.live.owner = some (.low n r) → x.live.move = .queued
  idle : ∀ x ∈ u.turbines, x.node ∈ rest → x.config.row = r ∧ x.live.owner = none

theorem revise_enter_revise (o : Owner) (p : Phase) (acc : Owner → Option Account) {f : Account → Account}
    (hf : ∀ a, (f a).enter p = f (a.enter p)) : revise o (Account.enter p) (revise o f acc) = revise o f (revise o (Account.enter p) acc) := by
  rw [revise_revise, revise_revise]
  exact congrArg (revise o · acc) (funext hf)

/-- The live record of a turbine that requests a move for an owner (R124). -/
def Live.request (o : Owner) (g : Int) (l : Live) : Live := { l with move := .queued, owner := some o, target := some g }

/-- A member joins the LOW list for a step (R89, R124). -/
theorem Books.queueLow {acc : Owner → Option Account} {T : List Turbine} {d : Desk} (h : Books acc T d)
    (hn : (T.map fun t => t.node).Nodup) {x : Turbine} (hx : x ∈ T) (hi : x.live.owner = none) {n r : Nat} (hr : r = x.config.row)
    (hb : Backs (acc (.low n r)) .queued) (g : Int) :
    Books (revise (.low n r) (Account.need 1) acc)
      (relive x.node (Live.request (.low n r) g) T) { d with low := d.low ++ [x.node] } := by
  obtain ⟨hm, hs⟩ := h.idle_of_unowned hx hi
  have hnot : x.node ∉ d.low := fun hl => by
    have := (h.low.mem_iff hn hx).1 hl
    simp [Turbine.waitsLow, hm] at this
  refine h.change hn hx (g := Live.request (.low n r) g) (handled_queued rfl rfl rfl hs) (hi ▸ transfers_need acc (.low n r)) (fun o e => ?_) rfl rfl
    (Restands.append h.low.1 hnot) (h.high_stands hn hx ?_) (h.retargets_stand hn hx ?_)
  · cases e; exact ⟨hr, hb⟩
  · simp [Turbine.waitsHigh, Live.request, hm]
  · simp [Turbine.retargeting, Live.request, hm]

/-- A step on the release of a step handles one member. -/
theorem OnRelease.member {s u : State} {n r : Nat} {node : Nat} {rest : List Nat} (hrest : node ∉ rest)
    (hs : RowTableOk s) (h : OnRelease s n r (node :: rest) u) (ts : List (Nat × Int)) :
    OnRelease s n r rest (State.releaseMember ts n r u node) := by
  have hnd : (u.turbines.map fun t => t.node).Nodup := (rowTableOk_of_layout h.layout hs).nodes_nodup
  obtain ⟨a, ha⟩ := h.found
  have hidle : ∀ x ∈ u.turbines, x.node ∈ rest → x.config.row = r ∧ x.live.owner = none := fun x hx hm =>
    h.idle x hx (List.mem_cons_of_mem _ hm)
  rcases State.releaseMember_cases ts n r u node with e | ⟨g, hg, hacc, e⟩ | ⟨g, ⟨x, hxf⟩, e⟩
  · rw [e]
    exact { h with idle := hidle }
  · have hw := WavesOnly.updStep u n r g
    have hacc' := account_updStep u n r hg fun st _ => hacc st
    rw [e]
    exact
      { layout := hw.layout.trans h.layout
        counter := hw.waveCounter.trans h.counter
        shaped := h.shaped.trans (Shaped.updStep u n r hg)
        neutral := hw.neutral.trans h.neutral
        mode := hw.mode.trans h.mode
        accounts := fun o ho => by rw [hacc', revise_ne ho, h.accounts o ho]
        books := by
          rw [hacc', hw.turbines, hw.desk, revise_enter_revise _ _ _ (f := Account.atOnce) fun _ => rfl]
          refine h.books.accounts fun o => ?_
          by_cases eo : o = .low n r
          · subst eo
            exact .atOnce (a.enter .releasing) 1 (by rw [revise_self, ha]; rfl) (by rw [revise_self, revise_self, ha]; rfl)
          · exact .same (revise_ne eo _ _)
        found := ⟨a.atOnce, by rw [hacc', revise_self, ha]; rfl⟩
        queued := by rw [hw.turbines]; exact h.queued
        idle := by rw [hw.turbines]; exact hidle }
  · rw [e]
    obtain ⟨hx, rfl⟩ := State.turbine?_mem hxf
    obtain ⟨hr, ho⟩ := h.idle x hx List.mem_cons_self
    have hw := WavesOnly.updStep u n r fun x => { x with needed := x.needed + 1 }
    have hacc' := account_updStep u n r (g := fun x => { x with needed := x.needed + 1 }) (f := Account.need 1) (fun _ => rfl)
      fun _ _ => rfl
    set v := u.updStep n r fun x => { x with needed := x.needed + 1 } with hv
    have hq : (v.queueLow n r x.node g).turbines =
        relive x.node (Live.request (.low n r) g) u.turbines := rfl
    have hd : (v.queueLow n r x.node g).desk = { u.desk with low := u.desk.low ++ [x.node] } := rfl
    have hqa : (v.queueLow n r x.node g).account = v.account := account_congr rfl rfl
    have hql : (v.queueLow n r x.node g).layout = v.layout :=
      (layout_updLive v x.node (Live.request (.low n r) g)).trans rfl
    exact
      { layout := hql.trans (hw.layout.trans h.layout)
        counter := hw.waveCounter.trans h.counter
        shaped := h.shaped.trans (Shaped.updStep u n r fun _ => rfl)
        neutral := hw.neutral.trans h.neutral
        mode := hw.mode.trans h.mode
        accounts := fun o ho => by rw [hqa, hacc', revise_ne ho, h.accounts o ho]
        books := by
          rw [hqa, hacc', hq, hd, revise_enter_revise _ _ _ (f := Account.need 1) fun _ => rfl]
          exact h.books.queueLow hnd hx ho hr.symm ⟨_, by rw [revise_self, ha]; rfl, .inl rfl⟩ g
        found := ⟨a.need 1, by rw [hqa, hacc', revise_self, ha]; rfl⟩
        queued := fun y hy hyo => by
          rcases mem_relive (hq ▸ hy) with ⟨hy, -⟩ | ⟨z, -, -, rfl⟩
          · exact h.queued y hy hyo
          · rfl
        idle := fun y hy hm => by
          rcases mem_relive (hq ▸ hy) with ⟨hy, -⟩ | ⟨z, hz, hzn, rfl⟩
          · exact hidle y hy hm
          · exact absurd (hzn ▸ hm) hrest }

end Sys2Proof.Machine

/-! The release tests, the ends of modes and the end of an event keep the invariant. -/

namespace Sys2Proof.Machine

theorem OnRelease.members {s : State} {n r : Nat} (hs : RowTableOk s) (ts : List (Nat × Int)) (rest : List Nat) (hnd : rest.Nodup)
    {u : State} (h : OnRelease s n r rest u) : OnRelease s n r [] (rest.foldl (State.releaseMember ts n r) u) := by
  induction rest generalizing u with
  | nil => exact h
  | cons node rest ih =>
    rw [List.nodup_cons] at hnd
    exact ih hnd.2 (h.member hnd.1 hs ts)

/-- A change of a wave that keeps its steps leaves all accounts. -/
theorem account_updWave_same (s : State) (n : Nat) {g : Wave → Wave} (hn : ∀ w, (g w).num = w.num)
    (hst : ∀ w, (g w).steps = w.steps) : (s.updWave n g).account = s.account := by
  funext o
  cases o with
  | neutral r => rfl
  | low m r =>
    simp only [State.account, State.step?, State.wave?_updWave s n m g hn]
    cases s.wave? m with
    | none => rfl
    | some w =>
      simp only [Option.map_some, Option.bind_some]
      split
      · simp only [Wave.step?, hst]
      · rfl

theorem Settling.updWave_same (s : State) (n : Nat) {g : Wave → Wave} (hn : ∀ w, (g w).num = w.num) (hr : ∀ w, (g w).running = w.running)
    (hst : ∀ w, (g w).steps = w.steps) : Settling s (s.updWave n g) :=
  ⟨rfl, Shaped.updWave s n fun w => by simp only [Wave.shape, hn, hr, hst], Settles.of_eq (account_updWave_same s n hn hst)⟩

theorem Wave.releaseLatches_same (w : Wave) (st : WaveStep) (df uf : Nat) : (w.releaseLatches st df uf).num = w.num ∧
    (w.releaseLatches st df uf).running = w.running ∧ (w.releaseLatches st df uf).steps = w.steps := by
  unfold Wave.releaseLatches
  split <;> exact ⟨rfl, rfl, rfl⟩

/-- A release leaves the rest of the invariant in place: the row is free, and no other step changes its standing. -/
theorem Sound.released {s t : State} (h : Sound s) {n r : Nat} (older : OlderEnded (s.waves.map fun w => w.num) s.account n r)
    (free : ∀ o : Owner, o.row = r → o ≠ .low n r → ¬Busy (s.account o)) (layout : t.layout = s.layout)
    (counter : t.waveCounter = s.waveCounter) (shaped : Shaped s t) (neutral : t.neutral = s.neutral) (mode : t.mode = s.mode)
    (tame : ∀ m q, Owner.low m q ≠ .low n r → (Busy (t.account (.low m q)) → Busy (s.account (.low m q))) ∧
      (Ended (s.account (.low m q)) → Ended (t.account (.low m q))))
    (books : Books t.account t.turbines t.desk) : Sound t where
  table := rowTableOk_of_layout layout h.table
  waves := wavesOk_of_shaped h.waves (plans_of_layout layout) counter shaped
  ordered := by
    have hall := ((h.ordered.and older).and h.waves.nums_nodup).sublist shaped.nums
    refine hall.imp fun {o y} ⟨⟨hord, hold⟩, hne⟩ q hb => ?_
    by_cases e : Owner.low y q = .low n r
    · obtain ⟨rfl, rfl⟩ := Owner.low.inj e
      exact (tame o q fun e' => hne (Owner.low.inj e').1).2 (hold rfl)
    · have hb' := (tame y q e).1 hb
      by_cases e' : Owner.low o q = .low n r
      · obtain ⟨rfl, rfl⟩ := Owner.low.inj e'
        exact absurd hb' (free (.low y q) rfl e)
      · exact (tame o q e').2 (hord q hb')
  rows := neutral ▸ h.rows
  books := books
  apart m q hn hl := by
    have hn' : Busy (s.account (.neutral q)) := by
      simpa only [State.account, State.neutralStep?, neutral] using hn
    by_cases e : Owner.low m q = .low n r
    · obtain ⟨rfl, rfl⟩ := Owner.low.inj e
      exact free (.neutral q) rfl (by simp) hn'
    · exact h.apart m q hn' ((tame m q e).1 hl)
  judged := neutral ▸ h.judged
  pass e := ⟨shaped.nil (h.pass (mode ▸ e)).1, neutral ▸ (h.pass (mode ▸ e)).2⟩
  returning e := shaped.nil (h.returning (mode ▸ e))

/-- Where no other step at a row is busy and one there is unreleased, the row's turbines have no owner. -/
theorem Sound.row_idle {s : State} (h : Sound s) {r : Nat} (free : ∀ o : Owner, o.row = r → ¬Busy (s.account o)) :
    ∀ x ∈ s.turbines, x.config.row = r → x.live.owner = none := fun x hx hr =>
  Option.eq_none_iff_forall_ne_some.2 fun o e =>
    free o ((h.books.owners x hx o e).1.trans hr) (h.books.owners x hx o e).2.busy

/-- The release of a step takes its members in column order, in a state whose books have it RELEASING. -/
theorem Sound.onRelease {s s1 : State} (h : Sound s) {n r : Nat} (h1 : Settling s s1) (hacc : s1.account = s.account) {a : Account}
    (ha : s.account (.low n r) = some a) (hp : a.phase = .unreleased) (free : ∀ o : Owner, o.row = r → ¬Busy (s.account o)) :
    OnRelease s n r (s.members r) s1 where
  layout := h1.aside.layout
  counter := h1.aside.waveCounter
  shaped := h1.shaped
  neutral := h1.aside.neutral
  mode := h1.aside.mode
  accounts o _ := by rw [hacc]
  books := by
    rw [hacc, h1.aside.turbines, h1.aside.desk]
    have hu := h.books.unowned (free (.low n r) rfl)
    refine h.books.accounts fun o => ?_
    by_cases e : o = .low n r
    · subst e
      refine .unowned hu fun x hx => .inr ?_
      have hbal := h.books.counts _ a ha (by rw [hp]; simp)
      rw [revise_self, ha] at hx
      cases hx
      simpa [Account.enter, hu] using hbal
    · exact .same (revise_ne e _ _)
  found := ⟨a, by rw [hacc, ha]⟩
  queued x hx ho := by
    rw [h1.aside.turbines] at hx
    exact absurd (h.books.owners x hx _ ho).2.busy (free (.low n r) rfl)
  idle x hx hm := by
    rw [h1.aside.turbines] at hx
    have hr := (h.table.mem_members_of_mem hx).1 hm
    exact ⟨hr, h.row_idle free x hx hr⟩

theorem RowTableOk.members_nodup {s : State} (h : RowTableOk s) {r : Nat} (hr : r ≤ 15) : (s.members r).Nodup :=
  (h.members_columns hr).imp fun {a b} hab e => by subst e; exact Nat.lt_irrefl _ hab

/-- A turbine that is queued for a LOW step is among those queued for it. -/
theorem Books.not_queued {s : State} {acc : Owner → Option Account} (h : Books acc s.turbines s.desk) (ht : RowTableOk s) {n r : Nat}
    (hq : s.queuedFor n r = []) : ∀ y ∈ s.turbines, y.live.owner = some (.low n r) → y.live.move ≠ .queued := fun y hy ho hm => by
  have hl : y.node ∈ s.low := h.low.2.2 y hy (by simp [Turbine.waitsLow, hm, ho])
  have : y.node ∈ s.queuedFor n r := List.mem_filter.2 ⟨hl, by simp [State.ownerOf, ht.turbine?_of_mem hy, ho]⟩
  rw [hq] at this
  cases this

/-- A release whose members are all handled decides the step's state (R90). -/
def State.decideRelease (s : State) (n r : Nat) : State :=
  if s.queuedFor n r = [] then s.enterDone n r else s.updStep n r fun x => { x with state := .releasing }

/-- The state of a released step: DONE where it owns nothing, and RELEASING otherwise. -/
theorem OnRelease.decided {s u : State} (h : Sound s) {n r : Nat} (hu : OnRelease s n r [] u) :
    WavesOnly u (u.decideRelease n r) ∧ Shaped u (u.decideRelease n r) ∧
      Books (u.decideRelease n r).account u.turbines u.desk ∧
      ∀ m q, Owner.low m q ≠ .low n r → (Busy ((u.decideRelease n r).account (.low m q)) → Busy (u.account (.low m q))) ∧
        (Ended (u.account (.low m q)) → Ended ((u.decideRelease n r).account (.low m q))) := by
  have ht : RowTableOk u := rowTableOk_of_layout hu.layout h.table
  have hw : WavesOk u := wavesOk_of_shaped h.waves (plans_of_layout hu.layout) hu.counter hu.shaped
  unfold State.decideRelease
  split
  · rename_i hq
    obtain ⟨hs, acc, rfl, hset⟩ := account_enterDone hw n r
    refine ⟨WavesOnly.enterDone u n r, hs, Books.settles (hu.books.accounts fun o => ?_) hset, fun m q e => ?_⟩
    · by_cases e : o = .low n r
      · subst e
        refine .unowned (ownedIn_eq_zero.2 fun x hx ho => ?_) fun x hx => .inl ?_
        · exact hu.books.not_queued ht hq x hx ho (hu.queued x hx ho)
        · rw [revise_self] at hx
          obtain ⟨a, -, rfl⟩ := Option.map_eq_some_iff.1 (Option.mem_def.1 hx)
          rfl
      · exact .same (by rw [revise_ne e, revise_ne e])
    · have := hset.tames m q
      rwa [revise_ne e] at this
  · have e := account_updStep u n r (g := fun x => { x with state := .releasing }) (f := Account.enter .releasing) (fun _ => rfl)
      fun _ _ => rfl
    exact ⟨rfl, Shaped.updStep u n r fun _ => rfl, e ▸ hu.books, fun m q hne => by rw [e, revise_ne hne]; exact ⟨id, id⟩⟩

theorem Sound.releaseStep {s : State} (h : Sound s) {n r : Nat} (hc : s.canRelease n r = true) : Sound (s.releaseStep n r) := by
  obtain ⟨w, st, hw, hst, hhold, hfree⟩ := State.canRelease_holding hc
  have hacc : s.account (.low n r) = some st.account := by simp [State.account, State.step?, hw, hst]
  have hph : st.account.phase = .unreleased := by simp [WaveStep.account, hhold, StepState.phase]
  have hnb : ¬Busy (s.account (.low n r)) := by
    rintro ⟨a, ha, hp⟩
    cases hacc.symm.trans (Option.mem_def.1 ha)
    simp [hph] at hp
  obtain ⟨hold, hother⟩ := h.toCore.rowFree hw hfree fun he => by
    have := he _ (Option.mem_def.2 hacc)
    rw [hph] at this
    cases this
  have hfree' : ∀ o : Owner, o.row = r → ¬Busy (s.account o) := fun o ho => by
    by_cases e : o = .low n r
    · exact e ▸ hnb
    · exact hother o ho e
  have hr15 : r ≤ 15 := by
    obtain ⟨hwm, -⟩ := State.wave?_mem hw
    obtain ⟨hsm, rfl⟩ := Wave.step?_mem hst
    exact (h.waves.2.2.2.2.2.2 w hwm).2.1 st hsm
  have hsame := fun x : Wave => x.releaseLatches_same st s.df s.uf
  have h0 := Settling.updWave_same s n (fun x => (hsame x).1) (fun x => (hsame x).2.1) fun x => (hsame x).2.2
  have h1 := h0.trans (Settling.updStep_same _ n r (g := fun x => { x with forced := false, owesTest := false, owesDeadline := false })
    (fun _ => rfl) fun _ _ => rfl)
  set s1 := (s.updWave n fun x => x.releaseLatches st s.df s.uf).updStep n r fun x =>
    { x with forced := false, owesTest := false, owesDeadline := false } with hs1
  have hacc1 : s1.account = s.account :=
    (account_updStep_same _ n r (g := fun x => { x with forced := false, owesTest := false, owesDeadline := false })
      (fun _ => rfl) fun _ _ => rfl).trans
      (account_updWave_same s n (fun x => (hsame x).1) fun x => (hsame x).2.2)
  have hon := (h.onRelease h1 hacc1 hacc hph hfree').members h.table w.targets _ (h.table.members_nodup hr15)
  have hstep : s.releaseStep n r = ((s.members r).foldl (State.releaseMember w.targets n r) s1).decideRelease n r := by
    unfold State.releaseStep
    simp only [hw, hst]
    rfl
  rw [hstep]
  set u := (s.members r).foldl (State.releaseMember w.targets n r) s1
  obtain ⟨d1, d2, d3, d4⟩ := hon.decided h
  refine h.released hold hother (d1.layout.trans hon.layout) (d1.waveCounter.trans hon.counter) (hon.shaped.trans d2)
    (d1.neutral.trans hon.neutral) (d1.mode.trans hon.mode) (fun m q hne => ?_) ?_
  · rw [← hon.accounts (.low m q) hne]
    exact d4 m q hne
  · rw [d1.turbines, d1.desk]
    exact d3

theorem Sound.release {s : State} (h : Sound s) {n r : Nat} (hc : s.canRelease n r = true) :
    Sound (s.releaseStep n r).completeWaves := (h.releaseStep hc).completeWaves

/-! ### The end of an event -/

/-- A deadline action acts on a HOLDING step (R86). -/
theorem State.owesAction_holding {s : State} {n r : Nat} (h : s.owesAction n r = true) : ∃ st, s.step? n r = some st ∧ st.state = .holding := by
  unfold State.owesAction at h
  split at h
  · cases h
  · rename_i w hw
    rw [Bool.and_eq_true] at h
    obtain ⟨-, h⟩ := h
    split at h
    · cases h
    · rename_i st hst
      simp only [Bool.and_eq_true, beq_iff_eq] at h
      exact ⟨st, by simp [State.step?, hw, hst], h.1.1⟩

theorem Sound.deadlineAction {s : State} (h : Sound s) {n r : Nat} (hc : s.owesAction n r = true) : Sound (s.deadlineAction n r) := by
  obtain ⟨st, hst, hh⟩ := State.owesAction_holding hc
  refine (Settling.deadlineAction h.waves (Settling.not_busy_of_unreleased fun x hx => ?_)).sound h
  cases hst.symm.trans hx
  exact .inr hh

theorem Sound.releaseLoop (fuel : Nat) (released : List Nat) {s : State} (h : Sound s) : Sound (State.releaseLoop fuel released s) := by
  induction fuel generalizing released s with
  | zero => exact h
  | succ fuel ih =>
    unfold State.releaseLoop
    split
    · rename_i k s1 e
      obtain ⟨hk, d, rfl⟩ := State.choose_eq e
      have hc : s.canRelease k.1 k.2 = true := by
        have := (List.mem_filter.1 hk).2
        simp only [Bool.and_eq_true] at this
        exact this.1.1
      exact ih _ (Sound.release (s := { s with draws := d }) (Sound.of_ledger (s := s) rfl h) hc)
    · split
      · rename_i k s1 e
        obtain ⟨hk, d, rfl⟩ := State.choose_eq e
        have hc : s.owesAction k.1 k.2 = true := by
          have := (List.mem_filter.1 hk).2
          simp only [Bool.and_eq_true] at this
          exact this.1.1
        exact ih _ (Sound.deadlineAction (s := { s with draws := d }) (Sound.of_ledger (s := s) rfl h) hc)
      · exact h

/-- A mode other than PASS and RETURN asks nothing of the waves; PASS and RETURN ask for an empty queue. -/
theorem Sound.setMode {s : State} (h : Sound s) {m : Mode} (c : ModeCause) (hp : m = .pass → s.waves = [] ∧ s.neutral.active = false)
    (hr : m = .returning → s.waves = []) : Sound (s.setMode m c) where
  table := h.table
  waves := h.waves
  ordered := h.ordered
  rows := h.rows
  books := h.books
  apart := h.apart
  judged := h.judged
  pass := hp
  returning := hr

theorem Sound.endToPass {s : State} (h : Sound s) (he : s.drainOver = true ∨ s.returnOver = true) : Sound s.endToPass := by
  have hover : s.waves = [] ∧ s.neutral.active = false := by
    rcases he with he | he
    · simp only [State.drainOver, Bool.and_eq_true, List.isEmpty_iff, Bool.not_eq_true'] at he
      exact ⟨he.1.2, he.2⟩
    · simp only [State.returnOver, Bool.and_eq_true, beq_iff_eq, Bool.not_eq_true'] at he
      exact ⟨h.returning he.1, he.2⟩
  exact Sound.of_ledger (s := s.setMode .pass .complete) rfl (h.setMode .complete (fun _ => hover) fun e => by cases e)

theorem Sound.judgeEnd {s : State} (h : Sound s) : Sound s.judgeEnd := by
  unfold State.judgeEnd
  split
  · rename_i he; exact h.endToPass (.inl he)
  · split
    · rename_i he; exact h.endToPass (.inr he)
    · exact h

theorem Sound.settleAfter {s : State} (h : Sound s) (released : List Nat) : Sound (s.settleAfter released) :=
  (h.releaseLoop _ released).judgeEnd.serveArbiter

end Sys2Proof.Machine

/-! Veer events and the entry to DRAIN keep the invariant (R98, R101, R147). -/

namespace Sys2Proof.Machine

/-- Queued turbines of an owner leave the LOW list and it, which counts them (R98, R126). -/
theorem Books.unqueue {o : Owner} (ns : List Nat) {acc : Owner → Option Account} {T : List Turbine} {d : Desk} (h : Books acc T d)
    (hn : (T.map fun t => t.node).Nodup) (hnd : ns.Nodup)
    (hx : ∀ n ∈ ns, ∃ x ∈ T, x.node = n ∧ x.live.owner = some o ∧ x.live.move = .queued ∧ x.live.slot = none) :
    Books (revise o (Account.count ns.length) acc) (ns.foldl (fun T n => relive n Live.toIdle T) T)
      { d with low := d.low.filter fun n => !ns.contains n, high := d.high.filter fun n => !ns.contains n } := by
  induction ns generalizing acc T d with
  | nil =>
    have e : revise o (Account.count 0) acc = acc := by
      funext p; by_cases hp : p = o
      · subst hp; rw [revise_self]; cases acc p <;> rfl
      · exact revise_ne hp _ _
    have hl : ∀ l : List Nat, (l.filter fun n => !([] : List Nat).contains n) = l := fun l => by simp
    simp only [List.foldl_nil, List.length_nil, e, hl]
    exact h
  | cons n ns ih =>
    rw [List.nodup_cons] at hnd
    obtain ⟨x, hxm, rfl, ho, hm, hs⟩ := hx n List.mem_cons_self
    have h1 : Books (revise o (Account.count 1) acc) (relive x.node Live.toIdle T)
        { d with low := d.low.filter fun n => n != x.node, high := d.high.filter fun n => n != x.node } := by
      refine h.change hn hxm (handled_idle rfl rfl rfl) (ho ▸ transfers_count acc o) (fun p hp => by cases hp) ?_ ?_
        (Restands.filter h.low.1) (Restands.filter h.high.1) (h.retargets_stand hn hxm ?_)
      · simp [hs, Live.toIdle]
      · simp [hs, Live.toIdle]
      · simp [Turbine.retargeting, hm, Live.toIdle]
    have h2 := ih h1 (by rw [relive_map_node]; exact hn) hnd.2 fun m hm' => by
      obtain ⟨y, hy, rfl, hyo⟩ := hx m (List.mem_cons_of_mem _ hm')
      refine ⟨y, relive_mem_of_ne hy fun e => hnd.1 (e ▸ hm'), rfl, hyo⟩
    have hf : ∀ l : List Nat, ((l.filter fun n => n != x.node).filter fun n => !ns.contains n) =
        l.filter fun n => !(x.node :: ns).contains n := fun l => by
      rw [List.filter_filter]
      refine List.filter_congr fun m _ => ?_
      rw [List.contains_cons, Bool.not_or, Bool.and_comm]
      rfl
    have hc : revise o (Account.count ns.length) (revise o (Account.count 1) acc) = revise o (Account.count (x.node :: ns).length) acc := by
      rw [revise_revise]
      congr 1
      funext a
      simp only [Function.comp, Account.count, List.length_cons]
      congr 1
      omega
    simp only [hf] at h2
    rw [hc] at h2
    exact h2

theorem foldl_updLive_toIdle (ns : List Nat) (s : State) : ns.foldl (fun s n => s.updLive n Live.toIdle) s =
    { s with turbines := ns.foldl (fun T n => relive n Live.toIdle T) s.turbines } := by
  induction ns generalizing s with
  | nil => rfl
  | cons n ns ih => rw [List.foldl_cons, ih]; rfl

theorem filter_contains_of_not_mem {l ns : List Nat} (h : ∀ n ∈ ns, n ∉ l) : (l.filter fun n => !ns.contains n) = l :=
  List.filter_eq_self.2 fun n hn => by simpa using fun hm => h n hm hn

/-- The state once the turbines queued for a step have left the LOW list (R98). -/
def State.unqueued (s : State) (ns : List Nat) : State :=
  { s with
    low := s.low.filter fun n => !ns.contains n
    turbines := ns.foldl (fun T n => relive n Live.toIdle T) s.turbines }

theorem State.unqueueStep_eq (s : State) (n r : Nat) : s.unqueueStep n r =
    (s.unqueued (s.queuedFor n r)).updStep n r fun x =>
      { x with
        cancelled := x.cancelled + (s.queuedFor n r).length
        state := if (s.unqueued (s.queuedFor n r)).holdsSlotFor n r then .moving else .cancelled } := by
  unfold State.unqueueStep
  dsimp only
  rw [foldl_updLive_toIdle]
  rfl

theorem layout_unqueued (s : State) (ns : List Nat) : (s.unqueued ns).layout = s.layout := by
  have hT : ∀ (ns : List Nat) (u : State), (ns.foldl (fun s n => s.updLive n Live.toIdle) u).layout = u.layout := by
    intro ns
    induction ns with
    | nil => exact fun _ => rfl
    | cons n ns ih => exact fun u => (ih _).trans (layout_updLive u n Live.toIdle)
  have := hT ns { s with low := s.low.filter fun n => !ns.contains n }
  rw [foldl_updLive_toIdle] at this
  exact this

/-- A turbine of a table from which some have become IDLE is one of the others, or has no owner. -/
theorem mem_relives {ns : List Nat} {T : List Turbine} {y : Turbine} (hy : y ∈ ns.foldl (fun T n => relive n Live.toIdle T) T) :
    (y ∈ T ∧ y.node ∉ ns) ∨ y.live.owner = none := by
  induction ns generalizing T with
  | nil => exact .inl ⟨hy, by simp⟩
  | cons n ns ih =>
    rcases ih hy with ⟨hm, hn⟩ | hn
    · rcases mem_relive hm with ⟨hm, e⟩ | ⟨x, -, -, rfl⟩
      · exact .inl ⟨hm, by simp [e, hn]⟩
      · exact .inr rfl
    · exact .inr hn

/-- The turbines queued for a LOW step (R124). -/
theorem Core.queuedFor {s : State} (h : Core s) {n r m : Nat} (hm : m ∈ s.queuedFor n r) :
    ∃ x ∈ s.turbines, x.node = m ∧ x.live.owner = some (.low n r) ∧ x.live.move = .queued ∧ x.live.slot = none := by
  obtain ⟨hl, ho⟩ := List.mem_filter.1 hm
  obtain ⟨x, hx, rfl, hw⟩ := h.books.low.2.1 m hl
  obtain ⟨hmove, hs, -⟩ := h.books.waiting_low hx hw
  refine ⟨x, hx, rfl, ?_, hmove, hs⟩
  simpa [State.ownerOf, h.table.turbine?_of_mem hx] using ho

theorem Core.mem_queuedFor {s : State} (h : Core s) {x : Turbine} (hx : x ∈ s.turbines) {n r : Nat}
    (ho : x.live.owner = some (.low n r)) (hm : x.live.move = .queued) : x.node ∈ s.queuedFor n r := by
  have hl : x.node ∈ s.low := h.books.low.2.2 x hx (by simp [Turbine.waitsLow, hm, ho])
  exact List.mem_filter.2 ⟨hl, by simp [State.ownerOf, h.table.turbine?_of_mem hx, ho]⟩

/-- The books once the turbines queued for a step have left it, counted as cancelled. -/
theorem Core.unqueued {s : State} (h : Core s) (n r : Nat) :
    Books (revise (.low n r) (Account.count (s.queuedFor n r).length) s.account) (s.unqueued (s.queuedFor n r)).turbines
        (s.unqueued (s.queuedFor n r)).desk ∧
      ∀ y ∈ (s.unqueued (s.queuedFor n r)).turbines, y.live.owner = some (.low n r) → y.live.move ≠ .queued := by
  have hb := h.books.unqueue (s.queuedFor n r) h.table.nodes_nodup (h.books.low.1.filter _) fun m hm => h.queuedFor hm
  have hhigh : (s.desk.high.filter fun m => !(s.queuedFor n r).contains m) = s.desk.high :=
    filter_contains_of_not_mem fun m hm hh => by
      obtain ⟨x, hx, rfl, ho, -, -⟩ := h.queuedFor hm
      have := (h.books.high.mem_iff h.table.nodes_nodup hx).1 hh
      obtain ⟨-, -, q, hq⟩ := h.books.waiting_high hx this
      rw [ho] at hq
      cases hq
  rw [hhigh] at hb
  refine ⟨hb, fun y hy ho hm => ?_⟩
  rcases mem_relives hy with ⟨hy, hn⟩ | hn
  · exact hn (h.mem_queuedFor hy ho hm)
  · rw [ho] at hn; cases hn

theorem Sound.unqueueStep {s : State} (h : Sound s) {n r : Nat} {st : WaveStep} (hst : s.step? n r = some st)
    (hrel : st.state = .releasing) : Sound (s.unqueueStep n r) := by
  rw [State.unqueueStep_eq]
  obtain ⟨hb, hq⟩ := h.toCore.unqueued n r
  have hlay := layout_unqueued s (s.queuedFor n r)
  set ns := s.queuedFor n r
  set u := s.unqueued ns with hu
  have hua : u.account = s.account := account_congr rfl rfl
  set p : Phase := if u.holdsSlotFor n r then .moving else .ended with hp
  set g : WaveStep → WaveStep := fun x =>
    { x with cancelled := x.cancelled + ns.length, state := if u.holdsSlotFor n r then .moving else .cancelled } with hg
  have hacc : (u.updStep n r g).account = revise (.low n r) (fun a => (a.count ns.length).enter p) s.account := by
    rw [← hua]
    refine account_updStep u n r (g := g) (fun _ => rfl) fun x _ => ?_
    simp only [hg, hp, WaveStep.account, Account.count, Account.enter, Account.mk.injEq, true_and]
    refine ⟨?_, by omega⟩
    split <;> rfl
  have hst' : s.account (.low n r) = some st.account := by simp [State.account, hst]
  have hph : st.account.phase = .releasing := by simp [WaveStep.account, hrel, StepState.phase]
  have hw := WavesOnly.updStep u n r g
  have hshape : Shaped s (u.updStep n r g) := (Shaped.of_waves (s := s) (t := u) rfl).trans (Shaped.updStep u n r fun _ => rfl)
  have htame : Tames s.account (u.updStep n r g).account := by
    rw [hacc]
    refine tames_revise (fun a ha _ => ?_) fun a ha he => ?_ <;> cases hst'.symm.trans ha
    · exact .inl hph
    · rw [hph] at he; cases he
  have hbooks : Books (u.updStep n r g).account (u.updStep n r g).turbines (u.updStep n r g).desk := by
    rw [hacc, hw.turbines, hw.desk]
    refine hb.accounts fun o => ?_
    by_cases e : o = .low n r
    · subst e
      rw [revise_self, revise_self, hst']
      by_cases hold : u.holdsSlotFor n r = true
      · refine .moving (st.account.count ns.length) rfl hph ?_ hq
        simp [hp, hold, Account.enter]
      · refine .unowned (ownedIn_eq_zero.2 fun y hy ho => hold ?_) fun x hx => .inl ?_
        · rw [State.holdsSlotFor, List.any_eq_true]
          refine ⟨y, hy, ?_⟩
          rcases Turbine.handled_iff.1 (hb.handled y hy) with ⟨-, -, hn⟩ | ⟨o, -, -, ⟨hm, -⟩ | ⟨hm, -⟩ | ⟨hm, -⟩⟩
          · rw [ho] at hn; cases hn
          · exact absurd hm (hq y hy ho)
          · simp [ho, hm]
          · simp [ho, hm]
        · cases hx
          simp [hp, hold, Account.enter]
    · exact .same (by rw [revise_ne e, revise_ne e])
  have hcore : Core (u.updStep n r g) := h.toCore.change (hw.layout.trans hlay) rfl hshape (hw.neutral ▸ h.rows) htame hbooks
  refine h.change hcore hshape htame (fun q hbusy => ?_) (hw.neutral ▸ h.judged) hw.mode fun e => hw.neutral ▸ e
  rwa [hacc, revise_ne (by simp)] at hbusy

theorem Sound.veerStep {s : State} (h : Sound s) (k : Nat × Nat) : Sound (s.veerStep k) := by
  unfold State.veerStep
  split
  · exact h
  · rename_i st hst
    have hcancel : st.state.unreleased → Sound (s.cancelStep k.1 k.2) := fun hu =>
      (Settling.cancelStep (Settling.not_busy_of_unreleased fun x hx => by cases hst.symm.trans hx; exact hu)).sound h
    split
    · rename_i hs; exact hcancel (.inl hs)
    · rename_i hs; exact hcancel (.inr hs)
    · rename_i hs; exact h.unqueueStep hst hs
    all_goals exact h

theorem Sound.fold {α : Type} {f : State → α → State} (hf : ∀ s a, Sound s → Sound (f s a)) (l : List α) {s : State} (h : Sound s) :
    Sound (l.foldl f s) := by
  induction l generalizing s with
  | nil => exact h
  | cons a l ih => exact ih (hf s a h)

theorem Sound.cancelUnreleased {s : State} (h : Sound s) : Sound s.cancelUnreleased := h.fold (fun _ k hs => hs.veerStep k) _

theorem ledger_notify (s : State) (n : Notice) : (s.notify n).ledger = s.ledger := rfl

theorem ledger_tally (s : State) (g : Counters → Counters) : (s.tally g).ledger = s.ledger := rfl

theorem Sound.veer {s : State} (h : Sound s) (old new : Nat) : Sound (s.veer old new) :=
  Sound.of_ledger ((ledger_notify _ _).trans (ledger_tally _ _)) h.cancelUnreleased.completeWaves

/-- A change that keeps every account and record (R55). -/
theorem Sound.recount {s t : State} (h : Sound s) (layout : t.layout = s.layout) (counter : t.waveCounter = s.waveCounter)
    (shaped : Shaped s t) (neutral : t.neutral = s.neutral) (mode : t.mode = s.mode) (turbines : t.turbines = s.turbines)
    (desk : t.desk = s.desk) (acc : t.account = s.account) : Sound t :=
  have hcore : Core t := h.toCore.change layout counter shaped (neutral ▸ h.rows) (acc ▸ Tames.refl _) (by rw [acc, turbines, desk]; exact h.books)
  h.change hcore shaped (acc ▸ Tames.refl _) (fun _ hb => acc ▸ hb) (neutral ▸ h.judged) mode fun e => neutral ▸ e

/-- The FORMING record has no step, so that its discard leaves every account (R57, R72). -/
theorem account_filter_running {s : State} (h : WavesOk s) :
    ({ s with waves := s.waves.filter fun w => w.running } : State).account = s.account := by
  have ht : WavesOk { s with waves := s.waves.filter fun w => w.running } := wavesOk_of_shaped h rfl rfl (Shaped.filter s _)
  funext o
  cases o with
  | neutral r => rfl
  | low n r =>
    refine Option.ext fun a => ?_
    rw [account_low_eq_some ht, account_low_eq_some h]
    constructor
    · rintro ⟨w, hw, hn, hst⟩
      exact ⟨w, (List.mem_filter.1 hw).1, hn, hst⟩
    · rintro ⟨w, hw, hn, st, hst, he⟩
      refine ⟨w, List.mem_filter.2 ⟨hw, ?_⟩, hn, st, hst, he⟩
      cases hr : w.running with
      | true => rfl
      | false =>
        rw [(h.2.2.2.2.2.2 w hw).2.2 hr] at hst
        cases hst

theorem Sound.discardForming {s : State} (h : Sound s) : Sound s.discardForming :=
  h.recount rfl rfl (Shaped.filter s _) rfl rfl rfl rfl (account_filter_running h.waves)

theorem Sound.enterDrain {s : State} (h : Sound s) : Sound s.enterDrain := by
  have h1 : Sound (s.setMode .drain .stop) := h.setMode .stop (fun e => by cases e) fun e => by cases e
  have h2 := h1.discardForming.cancelUnreleased.completeWaves
  exact Sound.of_ledger (ledger_notify _ _) h2

end Sys2Proof.Machine

/-! The intake keeps the invariant (R55, R58 to R70). -/

namespace Sys2Proof.Machine

/-! ### The FORMING wave -/

/-- Where no wave is FORMING, every wave is RUNNING. -/
theorem State.running_of_forming?_none {s : State} (h : s.forming? = none) : ∀ w ∈ s.waves, w.running = true := fun w hw => by
  have := List.find?_eq_none.1 h w hw
  simpa using this

/-- The FORMING wave is the youngest, and the others are RUNNING (R55). -/
theorem WavesOk.forming_split {s : State} (h : WavesOk s) {w : Wave} (hf : s.forming? = some w) :
    ∃ init, s.waves = init ++ [w] ∧ (∀ x ∈ init, x.running = true) ∧ w.running = false ∧ w.steps = [] := by
  have hw : w ∈ s.waves := List.mem_of_find?_eq_some hf
  have hr : w.running = false := by simpa using List.find?_some hf
  have hne : s.waves ≠ [] := List.ne_nil_of_mem hw
  have hlast : s.waves.getLast hne = w := by
    have := hw
    rw [← List.dropLast_append_getLast hne, List.mem_append, List.mem_singleton] at this
    rcases this with hd | e
    · have := h.2.2.2.2.2.1 w hd
      rw [hr] at this
      cases this
    · exact e.symm
  refine ⟨s.waves.dropLast, ?_, h.2.2.2.2.2.1, hr, (h.2.2.2.2.2.2 w hw).2.2 hr⟩
  rw [← hlast, List.dropLast_append_getLast]

theorem Shaped.running {s t : State} (h : Shaped s t) (hs : ∀ w ∈ s.waves, w.running = true) : ∀ w ∈ t.waves, w.running = true := by
  intro w hw
  obtain ⟨x, hx, e⟩ := List.mem_map.1 (h.subset (List.mem_map_of_mem hw))
  have : x.running = w.running := congrArg (fun y => y.2.1) e
  rw [← this]
  exact hs x hx

/-- A step that a close builds: EMPTY or WAITING, with nothing counted (R66). -/
def WaveStep.Built (st : WaveStep) : Prop := (st.state = .empty ∨ st.state = .waiting) ∧ st.account.needed = 0 ∧ st.account.counted = 0

theorem State.buildSteps_built (s : State) (targets : List (Nat × Int)) (since : Option Nat) (es : List PlanEntry) :
    (s.buildSteps targets since es).map (fun st => st.row) = es.map (fun e => e.row) ∧
      ∀ st ∈ s.buildSteps targets since es, st.Built := by
  induction es generalizing since with
  | nil => exact ⟨rfl, by simp [State.buildSteps]⟩
  | cons e es ih =>
    unfold State.buildSteps
    split <;>
    · refine ⟨by simp [ih _], fun st hst => ?_⟩
      rcases List.mem_cons.1 hst with rfl | hst
      · exact ⟨by simp, rfl, rfl⟩
      · exact (ih _).2 st hst

/-- The rows of a closed wave's steps are those of its plan, each once. -/
theorem WavesOk.currentPlan_ok {s : State} (h : WavesOk s) {sec : Nat} {p : Plan} (hp : s.currentPlan = some (sec, p)) : p.ok := by
  obtain ⟨_, -, hk⟩ := Option.bind_eq_some_iff.1 hp
  obtain ⟨q, hq, e⟩ := Option.map_eq_some_iff.1 hk
  cases e
  refine h.1 p ?_
  have hj : s.plans[sec]? = some (some p) := Option.join_eq_some_iff.1 hq
  exact Vector.mem_toList_iff.2 (Vector.mem_of_getElem? hj)

/-- A step list as a close builds it: its rows each once and in range, with nothing counted. -/
def BuiltSteps (steps : List WaveStep) : Prop :=
  (steps.map fun st => st.row).Nodup ∧ (∀ st ∈ steps, st.row ≤ 15) ∧ ∀ st ∈ steps, st.Built

/-- The youngest wave, without a step, gets the steps that its close builds. -/
theorem Sound.youngest {s t : State} (h : Sound s) {init : List Wave} {w w' : Wave} (hs : s.waves = init ++ [w])
    (hinit : ∀ x ∈ init, x.running = true) (hw : w.steps = []) (ht : t.waves = init ++ [w']) (hnum : w'.num = w.num)
    (hrun : w'.running = true) (hb : BuiltSteps w'.steps) (layout : t.layout = s.layout) (counter : t.waveCounter = s.waveCounter)
    (neutral : t.neutral = s.neutral) (mode : t.mode = s.mode) (turbines : t.turbines = s.turbines) (desk : t.desk = s.desk) :
    Sound t := by
  obtain ⟨hplans, hcount, hlen, hnd, h255, -, hsteps⟩ := h.waves
  have hmem : ∀ x ∈ init, x ∈ s.waves := fun x hx => hs ▸ List.mem_append_left _ hx
  have hwm : w ∈ s.waves := hs ▸ List.mem_append_right _ List.mem_cons_self
  have hnums : (t.waves.map fun x => x.num) = s.waves.map fun x => x.num := by rw [hs, ht]; simp [hnum]
  have hok : WavesOk t := by
    refine ⟨by rw [PlansOk, plans_of_layout layout]; exact hplans, counter ▸ hcount, ?_, hnums ▸ hnd, fun x hx => ?_, ?_, fun x hx => ?_⟩
    · rw [ht, List.length_append, List.length_singleton]
      rw [hs, List.length_append, List.length_singleton] at hlen
      exact hlen
    · rw [ht, List.mem_append, List.mem_singleton] at hx
      rcases hx with hx | rfl
      · exact h255 x (hmem x hx)
      · exact hnum ▸ h255 w hwm
    · rw [ht, List.dropLast_concat]
      exact hinit
    · rw [ht, List.mem_append, List.mem_singleton] at hx
      rcases hx with hx | rfl
      · exact hsteps x (hmem x hx)
      · exact ⟨hb.1, hb.2.1, fun e => by rw [hrun] at e; cases e⟩
  have hnot : ∀ x ∈ init, x.num ≠ w.num := fun x hx e => by
    rw [hs, List.map_append, List.nodup_append] at hnd
    exact hnd.2.2 x.num (List.mem_map_of_mem hx) w.num (by simp) e
  have hsame : ∀ o : Owner, (∀ r, o ≠ .low w.num r) → t.account o = s.account o := fun o ho => by
    cases o with
    | neutral r => simp only [State.account, State.neutralStep?, neutral]
    | low n r =>
      have hne : n ≠ w.num := fun e => ho r (by rw [e])
      have : t.wave? n = s.wave? n := by
        rw [State.wave?, State.wave?, hs, ht, List.find?_append, List.find?_append]
        simp [hnum, Ne.symm hne]
      simp only [State.account, State.step?, this]
  have hnone : ∀ r, s.account (.low w.num r) = none := fun r => by
    rw [State.account, State.step?, h.waves.wave?_of_mem hwm]
    simp [Wave.step?, hw]
  have hnew : ∀ r a, t.account (.low w.num r) = some a → (a.phase = .ended ∨ a.phase = .unreleased) ∧ a.needed = a.counted := by
    intro r a ha
    obtain ⟨x, hx, e, st, hst, -, rfl⟩ := (account_low_eq_some hok).1 ha
    rw [ht, List.mem_append, List.mem_singleton] at hx
    rcases hx with hx | rfl
    · exact absurd e (hnot x hx)
    · obtain ⟨hstate, hn, hc⟩ := hb.2.2 st hst
      refine ⟨?_, hn.trans hc.symm⟩
      rcases hstate with e | e <;> simp [WaveStep.account, StepState.phase, e]
  have hidle : ∀ r, ¬Busy (t.account (.low w.num r)) := by
    rintro r ⟨a, ha, hp⟩
    rcases (hnew r a ha).1 with e | e <;> rcases hp with hp | hp <;> rw [hp] at e <;> cases e
  have hcase : ∀ o : Owner, (∃ r, o = .low w.num r) ∨ ∀ r, o ≠ .low w.num r := fun o => by
    by_cases e : ∃ r, o = .low w.num r
    · exact .inl e
    · exact .inr fun r he => e ⟨r, he⟩
  have hbusy : ∀ o, Busy (t.account o) → Busy (s.account o) := fun o hbt => by
    rcases hcase o with ⟨r, rfl⟩ | ho
    · exact absurd hbt (hidle r)
    · rwa [hsame o ho] at hbt
  have hcore : Core t :=
    { table := rowTableOk_of_layout layout h.table
      waves := hok
      ordered := by
        have ho := h.ordered
        rw [Ordered, hs, List.map_append, List.pairwise_append] at ho
        rw [Ordered, ht, List.map_append, List.pairwise_append]
        refine ⟨?_, List.pairwise_singleton _ _, fun o _ y hy r hby => ?_⟩
        · refine ho.1.imp_of_mem fun {o y} hom _ H r hby => ?_
          obtain ⟨x, hx, rfl⟩ := List.mem_map.1 hom
          rw [hsame (.low x.num r) fun q e => hnot x hx (Owner.low.inj e).1]
          exact H r (hbusy _ hby)
        · obtain rfl : y = w'.num := by simpa using hy
          rw [hnum] at hby
          exact absurd hby (hidle r)
      rows := neutral ▸ h.rows
      books := by
        rw [turbines, desk]
        refine h.books.accounts fun o => ?_
        rcases hcase o with ⟨r, rfl⟩ | ho
        · refine .unowned (h.books.unowned fun hbs => ?_) fun a ha => .inr (hnew r a ha).2
          rw [hnone r] at hbs
          obtain ⟨_, hx, -⟩ := hbs
          cases hx
        · exact .same (hsame o ho) }
  exact
    { toCore := hcore
      apart := fun n r hn hl => h.apart n r (hbusy _ hn) (hbusy _ hl)
      judged := neutral ▸ h.judged
      pass := fun e => by
        have := (h.pass (mode ▸ e)).1
        rw [hs] at this
        simp at this
      returning := fun e => by
        have := h.returning (mode ▸ e)
        rw [hs] at this
        simp at this }

/-! ### The close (R65 to R68) -/

/-- The FORMING wave closed under a plan, before its first step with work enters HOLDING (R66). -/
def State.closedState (s : State) (w : Wave) (sec : Nat) (p : Plan) : State := (s.updWave w.num fun _ => s.closedWave w sec p).stopQuiet

theorem State.closedState_waves {s : State} (h : WavesOk s) {init : List Wave} {w : Wave} (hs : s.waves = init ++ [w]) (sec : Nat) (p : Plan) :
    (s.closedState w sec p).waves = init ++ [s.closedWave w sec p] := by
  have hnd := h.nums_nodup
  rw [hs, List.map_append, List.nodup_append] at hnd
  have hinit : (init.map fun x => if x.num = w.num then s.closedWave w sec p else x) = init := by
    refine (List.map_congr_left fun x hx => if_neg fun e => ?_).trans (List.map_id' init)
    exact hnd.2.2 x.num (List.mem_map_of_mem hx) w.num (by simp) e
  change s.waves.map _ = _
  rw [hs, List.map_append, hinit]
  simp

theorem State.closedWave_built {s : State} (h : WavesOk s) {w : Wave} {sec : Nat} {p : Plan} (hp : s.currentPlan = some (sec, p)) :
    BuiltSteps (s.closedWave w sec p).steps := by
  obtain ⟨hrows, hbuilt⟩ := s.buildSteps_built w.targets none p.entries
  obtain ⟨-, -, -, h15, hnd⟩ := h.currentPlan_ok hp
  refine ⟨hrows ▸ hnd, fun st hst => ?_, hbuilt⟩
  have : st.row ∈ p.entries.map fun e => e.row := hrows ▸ List.mem_map_of_mem hst
  obtain ⟨e, he, hr⟩ := List.mem_map.1 this
  exact hr ▸ h15 e he

theorem Sound.closedState {s : State} (h : Sound s) {w : Wave} (hf : s.forming? = some w) {sec : Nat} {p : Plan}
    (hp : s.currentPlan = some (sec, p)) : Sound (s.closedState w sec p) := by
  obtain ⟨init, hs, hinit, -, hsteps⟩ := h.waves.forming_split hf
  exact h.youngest hs hinit hsteps (State.closedState_waves h.waves hs sec p) rfl rfl (State.closedWave_built h.waves hp) rfl rfl rfl
    rfl rfl rfl

/-- A close keeps the invariant, and leaves no wave FORMING. -/
theorem Sound.closeForming {s : State} (h : Sound s) : Sound s.closeForming ∧ (∀ w ∈ s.closeForming.waves, w.running = true) ∧
    s.closeForming.mode = s.mode := by
  unfold State.closeForming
  split
  · rename_i hf; exact ⟨h, State.running_of_forming?_none hf, rfl⟩
  · rename_i w hf
    split
    · refine ⟨Sound.of_ledger (s := s.discardForming) rfl h.discardForming, fun x hx => ?_, rfl⟩
      have hx : x ∈ s.waves.filter fun x => x.running := hx
      exact (List.mem_filter.1 hx).2
    · rename_i sec p hp
      have hp' : s.currentPlan = some (sec, p) := hp
      have h1 := h.closedState hf hp'
      obtain ⟨init, hs, hinit, -, hsteps⟩ := h.waves.forming_split hf
      have hwaves := State.closedState_waves h.waves hs sec p
      have hrun : ∀ x ∈ (s.closedState w sec p).waves, x.running = true := fun x hx => by
        rw [hwaves, List.mem_append, List.mem_singleton] at hx
        rcases hx with hx | rfl
        · exact hinit x hx
        · rfl
      have finish : ∀ u : State, Settling (s.closedState w sec p) u → ∀ f n, Sound ((u.tally f).notify n).completeWaves ∧
          (∀ x ∈ ((u.tally f).notify n).completeWaves.waves, x.running = true) ∧
          ((u.tally f).notify n).completeWaves.mode = s.mode := fun u hu f n => by
        have h2 : Sound ((u.tally f).notify n) := Sound.of_ledger ((ledger_notify _ _).trans (ledger_tally _ _)) (hu.sound h1)
        have h3 : Shaped u ((u.tally f).notify n) := Shaped.of_waves rfl
        exact ⟨h2.completeWaves, Shaped.running (hu.shaped.trans (h3.trans (Settling.completeWaves h2.waves).shaped)) hrun,
          (WavesOnly.completeWaves _).mode.trans hu.aside.mode⟩
      dsimp only
      split
      · rename_i st hst
        refine finish _ (Settling.enterHolding fun x hx => ?_) _ _
        have hmem : st ∈ (s.closedWave w sec p).steps := List.mem_of_find?_eq_some hst
        have hnot : st.state ≠ .empty := by simpa using List.find?_some hst
        have hcl : s.closedWave w sec p ∈ (s.closedState w sec p).waves := by rw [hwaves]; simp
        have := h1.waves.step?_of_mem hcl hmem
        cases this.symm.trans hx
        exact .inl (((State.closedWave_built h.waves hp').2.2 st hmem).1.resolve_left hnot)
      · exact finish _ (Settling.refl _) _ _

/-! ### Opening, gathering and folding (R59, R60, R69) -/

theorem freeNumber_le (used : List Nat) (fuel c : Nat) (hc : c ≤ 255) : freeNumber used fuel c ≤ 255 := by
  induction fuel generalizing c with
  | zero => exact hc
  | succ fuel ih =>
    unfold freeNumber
    split
    · exact ih _ (Nat.le_of_lt_succ (Nat.mod_lt _ (by omega)))
    · exact hc

/-- Where the search for a free number ends on one that is held, all the numbers that it tried are held. -/
theorem freeNumber_tried (used : List Nat) (fuel c : Nat) (hc : c ≤ 255) (h : freeNumber used fuel c ∈ used) :
    ∀ i, i ≤ fuel → (c + i) % 256 ∈ used := by
  induction fuel generalizing c with
  | zero =>
    intro i hi
    obtain rfl : i = 0 := Nat.le_zero.1 hi
    rw [Nat.add_zero, Nat.mod_eq_of_lt (by omega)]
    exact h
  | succ fuel ih =>
    unfold freeNumber at h
    split at h
    · rename_i hmem
      intro i hi
      cases i with
      | zero => rw [Nat.add_zero, Nat.mod_eq_of_lt (by omega)]; simpa using hmem
      | succ i =>
        have := ih _ (Nat.le_of_lt_succ (Nat.mod_lt _ (by omega))) h i (by omega)
        rwa [show ((c + 1) % 256 + i) % 256 = (c + (i + 1)) % 256 by omega] at this
    · rename_i hno
      exact absurd (List.contains_iff_mem.2 h) hno

/-- Of one wave number more than the records hold, one is free (R59). -/
theorem freeNumber_fresh (used : List Nat) (c : Nat) (hc : c ≤ 255) (hlen : used.length ≤ 4) :
    freeNumber used used.length c ∉ used := fun h => by
  have hsub : (List.range (used.length + 1)).map (fun i => (c + i) % 256) ⊆ used := fun m hm => by
    obtain ⟨i, hi, rfl⟩ := List.mem_map.1 hm
    exact freeNumber_tried used _ c hc h i (Nat.le_of_lt_succ (List.mem_range.1 hi))
  have hnd : ((List.range (used.length + 1)).map fun i => (c + i) % 256).Nodup := by
    refine List.Nodup.map_on (fun a ha b hb e => ?_) List.nodup_range
    have ha := List.mem_range.1 ha
    have hb := List.mem_range.1 hb
    omega
  have := (List.subperm_of_subset hnd hsub).length_le
  simp at this

theorem Sound.openWave {s : State} (h : Sound s) (hrun : ∀ w ∈ s.waves, w.running = true) (hlen : s.waves.length < 4)
    (hm : s.mode = .steer) (set : Nat) : Sound (s.openWave set).1 := by
  obtain ⟨hplans, hcount, -, hnd, h255, -, hsteps⟩ := h.waves
  set num := freeNumber (s.waves.map fun w => w.num) s.waves.length s.waveCounter with hnum
  obtain ⟨hnum255, hfresh⟩ : num ≤ 255 ∧ num ∉ s.waves.map fun w => w.num := by
    have := freeNumber_fresh (s.waves.map fun w => w.num) s.waveCounter hcount (by rw [List.length_map]; omega)
    rw [List.length_map] at this
    exact ⟨freeNumber_le _ _ _ hcount, this⟩
  have hwaves : (s.openWave set).1.waves = s.waves ++ [{ num := num, set := set }] := rfl
  have hok : WavesOk (s.openWave set).1 := by
    refine ⟨hplans, ?_, ?_, ?_, fun x hx => ?_, ?_, fun x hx => ?_⟩
    · exact Nat.le_of_lt_succ (Nat.mod_lt _ (by omega))
    · rw [hwaves, List.length_append, List.length_singleton]; omega
    · rw [hwaves, List.map_append, List.nodup_append]
      refine ⟨hnd, by simp, fun a ha b hb e => hfresh ?_⟩
      have : b = num := by simpa using hb
      rwa [← this, ← e]
    · rw [hwaves, List.mem_append, List.mem_singleton] at hx
      rcases hx with hx | rfl
      · exact h255 x hx
      · exact hnum255
    · rw [hwaves, List.dropLast_concat]; exact hrun
    · rw [hwaves, List.mem_append, List.mem_singleton] at hx
      rcases hx with hx | rfl
      · exact hsteps x hx
      · exact ⟨by simp, by simp, fun _ => rfl⟩
  have hacc : (s.openWave set).1.account = s.account := by
    funext o
    cases o with
    | neutral r => rfl
    | low n r =>
      refine Option.ext fun a => ?_
      rw [account_low_eq_some hok, account_low_eq_some h.waves]
      constructor
      · rintro ⟨w, hw, hn, st, hst, he⟩
        rw [hwaves, List.mem_append, List.mem_singleton] at hw
        rcases hw with hw | rfl
        · exact ⟨w, hw, hn, st, hst, he⟩
        · cases hst
      · rintro ⟨w, hw, hn, hst⟩
        exact ⟨w, hwaves ▸ List.mem_append_left _ hw, hn, hst⟩
  exact
    { table := h.table
      waves := hok
      ordered := by
        rw [hacc, Ordered, hwaves, List.map_append, List.pairwise_append]
        refine ⟨h.ordered, List.pairwise_singleton _ _, fun o _ y hy r hb => ?_⟩
        obtain rfl : y = num := by simpa using hy
        obtain ⟨a, ha, -⟩ := hb
        obtain ⟨w, hw, hn, -⟩ := (account_low_eq_some h.waves).1 ha
        exact absurd (List.mem_map.2 ⟨w, hw, hn⟩) hfresh
      rows := h.rows
      books := hacc ▸ h.books
      apart := hacc ▸ h.apart
      judged := h.judged
      pass := fun e => by cases hm.symm.trans e
      returning := fun e => by cases hm.symm.trans e }

/-- The account at a row, from what the books read of a wave's steps. -/
theorem Wave.step?_account (w : Wave) (r : Nat) : (w.step? r).map WaveStep.account =
    ((w.steps.map WaveStep.books).find? fun b => b.1 == r).map fun b =>
      ⟨b.2.1.phase, b.2.2.1, b.2.2.2.1 + b.2.2.2.2.1 + b.2.2.2.2.2.1 + b.2.2.2.2.2.2.1 + b.2.2.2.2.2.2.2⟩ := by
  rw [List.find?_map, Option.map_map]
  rfl

theorem Wave.shape_of_books {w w' : Wave} (h : w'.books = w.books) : w'.shape = w.shape := by
  simp only [Wave.books, Prod.mk.injEq] at h
  obtain ⟨hn, hr, hst⟩ := h
  have e := congrArg (List.map Prod.fst) hst
  simp only [List.map_map] at e
  simp only [Wave.shape, hn, hr]
  exact congrArg _ (congrArg _ e)

/-- A change of the waves that keeps what the books read of each. -/
theorem Sound.waves_books {s : State} (h : Sound s) {g : Wave → Wave} (hg : ∀ w, (g w).books = w.books) :
    Sound { s with waves := s.waves.map g } := by
  have hnum : ∀ w, (g w).num = w.num := fun w => congrArg Prod.fst (hg w)
  refine h.recount rfl rfl ?_ rfl rfl rfl rfl ?_
  · have e : (s.waves.map g).map Wave.shape = s.waves.map Wave.shape := by
      rw [List.map_map]
      exact List.map_congr_left fun w _ => Wave.shape_of_books (hg w)
    change ((s.waves.map g).map Wave.shape).Sublist _
    rw [e]
  · funext o
    cases o with
    | neutral r => rfl
    | low n r =>
      have hf : (s.waves.map g).find? (fun w => w.num == n) = (s.waves.find? fun w => w.num == n).map g :=
        find?_map_key (fun w : Wave => w.num) g hnum n s.waves
      simp only [State.account, State.step?, State.wave?, hf]
      cases s.waves.find? fun w => w.num == n with
      | none => rfl
      | some w =>
        have hst : (g w).steps.map WaveStep.books = w.steps.map WaveStep.books := congrArg (fun b => b.2.2) (hg w)
        simp only [Option.map_some, Option.bind_some, Wave.step?_account, hst]

/-- A change of the target maps and their counts. -/
theorem Sound.updWave {s : State} (h : Sound s) (n : Nat) {g : Wave → Wave} (hg : ∀ w, (g w).books = w.books) : Sound (s.updWave n g) := by
  refine h.waves_books fun w => ?_
  split
  · exact hg w
  · rfl

theorem Sound.gather {s : State} (h : Sound s) (n : Nat) (items : List Item) : Sound (s.gather n items) :=
  h.fold (fun u i hu => hu.updWave n (g := fun w => { w with targets := enterTarget i.node.toNat (u.targetOf i) w.targets }) fun _ => rfl)
    items

theorem Sound.foldItems {s : State} (h : Sound s) (set : Nat) (items : List Item) : Sound (s.foldItems set items) := by
  unfold State.foldItems
  split
  · exact h
  · refine Sound.of_ledger ((ledger_notify _ _).trans (ledger_tally _ _)) (h.fold (fun s i hs => ?_) items)
    unfold State.foldItem
    split
    · exact hs.updWave _ fun _ => rfl
    · exact hs.updWave _ fun _ => rfl

theorem Sound.takeInto {s : State} (h : Sound s) (n : Nat) (items : List Item) (last : Bool) : Sound (s.takeInto n items last) := by
  have h1 : Sound { s.gather n items with quiet := some 0, quietDue := false } := Sound.of_ledger (s := s.gather n items) rfl (h.gather n items)
  unfold State.takeInto
  dsimp only
  split
  · exact h1.closeForming.1
  · exact h1

theorem Sound.openOrFold {s : State} (h : Sound s) (hrun : ∀ w ∈ s.waves, w.running = true) (hm : s.mode = .steer) (set : Nat)
    (items : List Item) (last : Bool) : Sound (s.openOrFold set items last) := by
  unfold State.openOrFold
  split
  · rename_i hlen; exact (h.openWave hrun hlen hm set).takeInto _ _ _
  · exact h.foldItems set items

theorem Sound.intake {s : State} (h : Sound s) (hm : s.mode = .steer) (set : Nat) (last : Bool) (items : List Item) :
    Sound (s.intake set last items) := by
  unfold State.intake
  split
  · split
    · exact h.takeInto _ _ _
    · exact h.closeForming.1.openOrFold h.closeForming.2.1 (h.closeForming.2.2.trans hm) _ _ _
  · rename_i hf; exact h.openOrFold (State.running_of_forming?_none hf) hm _ _ _

end Sys2Proof.Machine

/-! A fresh neutral step takes its row over (R99, R100, R125, R137, R152, R154). -/

namespace Sys2Proof.Machine

/-- What the parts of a gain keep of the rest: the layout, the queue's shapes and the mode; no LOW step becomes busy or comes back, and one
that has been released or has ended stays so. -/
structure Drives (s t : State) : Prop where
  layout : t.layout = s.layout
  counter : t.waveCounter = s.waveCounter
  shaped : Shaped s t
  mode : t.mode = s.mode
  tames : Tames s.account t.account
  released : ∀ n r, Busy (s.account (.low n r)) ∨ Ended (s.account (.low n r)) → Busy (t.account (.low n r)) ∨ Ended (t.account (.low n r))

namespace Drives

theorem refl (s : State) : Drives s s := ⟨rfl, rfl, Shaped.refl s, rfl, Tames.refl _, fun _ _ h => h⟩

theorem trans {s t u : State} (a : Drives s t) (b : Drives t u) : Drives s u :=
  ⟨b.layout.trans a.layout, b.counter.trans a.counter, a.shaped.trans b.shaped, b.mode.trans a.mode, a.tames.trans b.tames,
    fun n r h => b.released n r (a.released n r h)⟩

theorem of_settling {s t : State} (h : Settling s t) : Drives s t :=
  ⟨h.aside.layout, h.aside.waveCounter, h.shaped, h.aside.mode, h.accounts.tames, fun n r hb => by
    rcases h.accounts (.low n r) with e | ⟨-, e⟩
    · rwa [e]
    · exact .inr e⟩

/-- A change that leaves the phases of the LOW accounts. -/
theorem of_phases {s t : State} (layout : t.layout = s.layout) (counter : t.waveCounter = s.waveCounter) (shaped : Shaped s t)
    (mode : t.mode = s.mode)
    (h : ∀ n r, ((t.account (.low n r)).map fun a => a.phase) = (s.account (.low n r)).map fun a => a.phase) : Drives s t := by
  have hb : ∀ n r, Busy (t.account (.low n r)) ↔ Busy (s.account (.low n r)) := fun n r => by
    have key : ∀ a : Option Account, Busy a ↔ ∃ p ∈ a.map fun x => x.phase, p = .releasing ∨ p = .moving := fun a => by
      cases a <;> simp [Busy]
    rw [key, key, h]
  have he : ∀ n r, Ended (t.account (.low n r)) ↔ Ended (s.account (.low n r)) := fun n r => by
    have key : ∀ a : Option Account, Ended a ↔ ∀ p ∈ a.map fun x => x.phase, p = .ended := fun a => by
      cases a <;> simp [Ended]
    rw [key, key, h]
  exact ⟨layout, counter, shaped, mode, fun n r => ⟨(hb n r).1, (he n r).2⟩, fun n r => by rw [hb, he]; exact id⟩

end Drives

/-- A change that drives, with its books. -/
theorem Core.driven {s t : State} (h : Core s) (d : Drives s t) (rows : NeutralRows t.neutral.steps)
    (books : Books t.account t.turbines t.desk) : Core t := h.change d.layout d.counter d.shaped rows d.tames books

theorem revise_phases (o : Owner) (f : Account → Account) (hf : ∀ a, (f a).phase = a.phase) (acc : Owner → Option Account) (p : Owner) :
    ((revise o f acc p).map fun a => a.phase) = (acc p).map fun a => a.phase := by
  by_cases e : p = o
  · subst e; rw [revise_self]; cases acc p <;> simp [hf]
  · rw [revise_ne e]

/-! ### One member -/

/-- One member more is needed by the neutral step at a row. -/
def State.needNeutral (s : State) (r : Nat) : State := s.updNeutral r fun n => { n with needed := n.needed + 1 }

theorem account_needNeutral (s : State) (r : Nat) : (s.needNeutral r).account = revise (.neutral r) (Account.need 1) s.account :=
  account_updNeutral s r (g := fun n => { n with needed := n.needed + 1 }) (f := Account.need 1) (fun _ => rfl) fun _ _ => rfl

theorem neutralRows_needNeutral {s : State} (h : NeutralRows s.neutral.steps) (r : Nat) : NeutralRows (s.needNeutral r).neutral.steps :=
  neutralRows_updNeutral h r fun _ => rfl

/-- A LOW step counts a turbine superseded (R100). -/
def State.superseding (s : State) (n q : Nat) : State := s.updStep n q fun x => { x with superseded := x.superseded + 1 }

/-- The record of a QUEUED turbine that a neutral step takes over (R125). -/
def Live.takenOver (r : Nat) (l : Live) : Live := { l with owner := some (.neutral r), target := some 0 }

/-- The record of a MOVING turbine that a neutral step takes over (R137). -/
def Live.retargeted (r : Nat) (l : Live) : Live :=
  { l with move := .retarget, slot := some .high, owner := some (.neutral r), target := some 0, deadline := .absent }

/-- A turbine passes from a LOW step, which counts it, to a neutral step, which needs it. -/
theorem transfers_takeOver (acc : Owner → Option Account) (n q r : Nat) :
    Transfers acc (revise (.low n q) (Account.count 1) (revise (.neutral r) (Account.need 1) acc)) (some (.low n q)) (some (.neutral r)) := by
  rw [revise_comm (by simp)]
  exact (transfers_count acc _).trans (transfers_need _ _)

/-- The accounts once a turbine has passed from a LOW step to a neutral step. -/
theorem Drives.superseding {s t : State} {n q r : Nat} (layout : t.layout = s.layout) (counter : t.waveCounter = s.waveCounter)
    (mode : t.mode = s.mode) (waves : t.waves = ((s.needNeutral r).superseding n q).waves)
    (neutral : t.neutral = ((s.needNeutral r).superseding n q).neutral) :
    Drives s t ∧ t.account = revise (.low n q) (Account.count 1) (revise (.neutral r) (Account.need 1) s.account) := by
  have hacc : t.account = revise (.low n q) (Account.count 1) (revise (.neutral r) (Account.need 1) s.account) := by
    rw [account_congr waves neutral, ← account_needNeutral]
    refine account_updStep _ n q (g := fun x => { x with superseded := x.superseded + 1 }) (fun _ => rfl) fun y _ => ?_
    simp only [WaveStep.account, Account.count, Account.mk.injEq, true_and]
    omega
  refine ⟨.of_phases layout counter ?_ mode fun m p => ?_, hacc⟩
  · have h1 : Shaped s ((s.needNeutral r).superseding n q) :=
      (Shaped.of_waves (s := s) (t := s.needNeutral r) rfl).trans
        (Shaped.updStep _ n q (g := fun x => { x with superseded := x.superseded + 1 }) fun _ => rfl)
    exact h1.trans (Shaped.of_waves waves)
  · rw [hacc, revise_phases _ (Account.count 1) (fun _ => rfl), revise_phases _ (Account.need 1) (fun _ => rfl)]

/-- The desk once a turbine has entered the retarget list with its slot reclassed (R137). -/
theorem State.listed_desk (u : State) (n : Nat) (g : Live → Live) :
    ({ (u.updLive n g).shiftSlot with retargets := (u.updLive n g).shiftSlot.retargets ++ [n] } : State).desk =
      ⟨u.desk.high, u.desk.low, u.desk.retargets ++ [n], u.desk.lowSlots - 1, u.desk.highSlots + min 1 u.desk.lowSlots⟩ := rfl

/-- A retarget, field by field. -/
theorem State.retarget_fields (s : State) (r : Nat) {x : Turbine} {n q : Nat} (ho : x.live.owner = some (.low n q)) :
    ((s.needNeutral r).retarget x r).layout = s.layout ∧ ((s.needNeutral r).retarget x r).waveCounter = s.waveCounter ∧
      ((s.needNeutral r).retarget x r).mode = s.mode ∧
      ((s.needNeutral r).retarget x r).waves = ((s.needNeutral r).superseding n q).waves ∧
      ((s.needNeutral r).retarget x r).neutral = ((s.needNeutral r).superseding n q).neutral ∧
      ((s.needNeutral r).retarget x r).turbines = relive x.node (Live.retargeted r) s.turbines ∧
      ((s.needNeutral r).retarget x r).desk =
        ⟨s.high, s.low, s.retargets ++ [x.node], s.lowSlots - 1, s.highSlots + min 1 s.lowSlots⟩ := by
  have e : (s.needNeutral r).retarget x r = (fun u : State => { u with retargets := u.retargets ++ [x.node] })
      ((((s.needNeutral r).withdraw (.deadline x.node)).superseding n q).updLive x.node (Live.retargeted r)).shiftSlot := by
    unfold State.retarget
    rw [ho]
    rfl
  rw [e]
  refine ⟨layout_updLive (((s.needNeutral r).withdraw (.deadline x.node)).superseding n q) x.node (Live.retargeted r), ?_⟩
  have hdesk : (((s.needNeutral r).withdraw (.deadline x.node)).superseding n q).desk = s.desk := by simp only [State.desk]; rfl
  have hd := State.listed_desk (((s.needNeutral r).withdraw (.deadline x.node)).superseding n q) x.node (Live.retargeted r)
  rw [hdesk] at hd
  simp only [State.shiftSlot, State.updLive_turbines] at hd ⊢
  exact ⟨rfl, rfl, rfl, rfl, rfl, hd⟩

/-- What the release of a neutral step at a row makes of a member (R154): the neutral step takes it on, as one that it owns or counts at
once. -/
structure Taken (s : State) (r : Nat) (x : Turbine) (t : State) : Prop where
  core : Core t
  drives : Drives s t
  others : ∀ q, q ≠ r → t.account (.neutral q) = s.account (.neutral q)
  fresh : ∃ b, t.account (.neutral r) = some b ∧ b.phase = .releasing
  turbines : (t.turbines = s.turbines ∧ x.live.owner = none) ∨
    ∃ g : Live → Live, t.turbines = relive x.node g s.turbines ∧ (g x.live).owner = some (.neutral r)

section Member
variable {s : State} (h : Core s) {r : Nat} {a : Account} (ha : s.account (.neutral r) = some a) (hp : a.phase = .releasing)
  {x : Turbine} (hx : x ∈ s.turbines) (hr : x.config.row = r)

include ha hp hr in
/-- The neutral step at the row stands behind any of its turbines. -/
theorem Core.backed (m : MoveState) : ∀ o, (some (.neutral r) : Option Owner) = some o → o.row = x.config.row ∧ Backs (s.account o) m := fun o e => by
  cases e
  exact ⟨hr.symm, a, ha, .inl hp⟩

include h ha hp hx hr

/-- An IDLE member joins the HIGH list (R124, R154). -/
theorem Core.queueHigh (hi : x.live.owner = none) : Taken s r x ((s.needNeutral r).queueHigh x r) := by
  obtain ⟨hm, hs⟩ := h.books.idle_of_unowned hx hi
  have hnd := h.table.nodes_nodup
  have hnot : x.node ∉ s.high := fun hl => by
    have := (h.books.high.mem_iff hnd hx).1 hl
    simp [Turbine.waitsHigh, hm] at this
  have hacc : ((s.needNeutral r).queueHigh x r).account = revise (.neutral r) (Account.need 1) s.account :=
    (account_congr rfl rfl).trans (account_needNeutral s r)
  have hlay : ((s.needNeutral r).queueHigh x r).layout = s.layout := layout_updLive (s.needNeutral r) x.node (Live.request (.neutral r) 0)
  have hd : Drives s ((s.needNeutral r).queueHigh x r) :=
    .of_phases hlay rfl (Shaped.of_waves rfl) rfl fun n q => by rw [hacc]; exact revise_phases _ (Account.need 1) (fun _ => rfl) _ _
  refine ⟨h.driven hd (neutralRows_needNeutral h.rows r) ?_, hd, fun p hne => by rw [hacc, revise_ne (by simpa using hne)],
    ⟨a.need 1, by rw [hacc, revise_self, ha]; rfl, hp⟩, .inr ⟨Live.request (.neutral r) 0, rfl, rfl⟩⟩
  rw [hacc]
  refine h.books.change (d' := ((s.needNeutral r).queueHigh x r).desk) hnd hx (g := Live.request (.neutral r) 0)
    (handled_queued rfl rfl rfl hs) (hi ▸ transfers_need _ _) (Core.backed ha hp hr _) rfl rfl (h.books.low_stands hnd hx ?_)
    (Restands.append h.books.high.1 hnot) (h.books.retargets_stand hnd hx ?_)
  · simp [Turbine.waitsLow, Live.request, hm]
  · simp [Turbine.retargeting, Live.request, hm]

/-- A member QUEUED for a LOW step moves to the HIGH list (R125). -/
theorem Core.moveToHigh {n q : Nat} (ho : x.live.owner = some (.low n q)) (hm : x.live.move = .queued) :
    Taken s r x ((s.needNeutral r).moveToHigh x r) := by
  have hnd := h.table.nodes_nodup
  obtain ⟨-, hs, -⟩ := h.books.waiting_low hx (by simp [Turbine.waitsLow, hm, ho])
  have hnot : x.node ∉ s.high := fun hl => by
    have := (h.books.high.mem_iff hnd hx).1 hl
    simp [Turbine.waitsHigh, hm, ho] at this
  have e : (s.needNeutral r).moveToHigh x r = { ((s.needNeutral r).superseding n q).updLive x.node (Live.takenOver r) with
        low := s.low.filter fun m => m != x.node, high := s.high ++ [x.node] } := by
    simp only [State.moveToHigh, State.supersede, ho]
    rfl
  have hd := Drives.superseding (s := s) (r := r) (n := n) (q := q) (t := (s.needNeutral r).moveToHigh x r)
    (by rw [e]; exact layout_updLive ((s.needNeutral r).superseding n q) x.node (Live.takenOver r)) (by rw [e]; rfl) (by rw [e]; rfl)
    (by rw [e]; rfl) (by rw [e]; rfl)
  refine ⟨h.driven hd.1 (by rw [e]; exact neutralRows_needNeutral h.rows r) ?_, hd.1, fun p hne => ?_, ⟨a.need 1, ?_, hp⟩,
    .inr ⟨Live.takenOver r, by rw [e]; rfl, rfl⟩⟩
  rotate_left
  · rw [hd.2, revise_ne (by simp), revise_ne (by simpa using hne)]
  · rw [hd.2, revise_ne (by simp), revise_self, ha]; rfl
  rw [hd.2, e]
  refine h.books.change (d' := ⟨s.high ++ [x.node], s.low.filter fun m => m != x.node, s.retargets, s.lowSlots, s.highSlots⟩) hnd hx
    (g := Live.takenOver r) (handled_queued rfl rfl hm hs) (ho ▸ transfers_takeOver _ _ _ _) (Core.backed ha hp hr _)
    rfl rfl ?_ ?_ (h.books.retargets_stand hnd hx rfl)
  · rw [show Turbine.waitsLow { x with live := Live.takenOver r x.live } = false by simp [Turbine.waitsLow, Live.takenOver, hm]]
    exact Restands.filter h.books.low.1
  · rw [show Turbine.waitsHigh { x with live := Live.takenOver r x.live } = true by simp [Turbine.waitsHigh, Live.takenOver, hm]]
    exact Restands.append h.books.high.1 hnot

/-- A member MOVING under a LOW slot is retargeted to 0 (R137). -/
theorem Core.retarget {n q : Nat} (ho : x.live.owner = some (.low n q)) (hm : x.live.move = .moving) (hs : x.live.slot = some .low) :
    Taken s r x ((s.needNeutral r).retarget x r) := by
  have hnd := h.table.nodes_nodup
  have hnot : x.node ∉ s.retargets := fun hl => by
    have := (h.books.retargets.mem_iff hnd hx).1 hl
    simp [Turbine.retargeting, hm] at this
  have hpos : 0 < s.lowSlots := by
    have : s.lowSlots = s.turbines.countP fun y => y.live.slot == some .low := h.books.lowSlots
    rw [this]
    exact List.countP_pos_iff.2 ⟨x, hx, by simp [hs]⟩
  obtain ⟨f1, f2, f3, f4, f5, f6, f7⟩ := State.retarget_fields s r ho
  have hd := Drives.superseding (s := s) (r := r) f1 f2 f3 f4 f5
  refine ⟨h.driven hd.1 (by rw [f5]; exact neutralRows_needNeutral h.rows r) ?_, hd.1, fun p hne => ?_, ⟨a.need 1, ?_, hp⟩,
    .inr ⟨Live.retargeted r, f6, rfl⟩⟩
  rotate_left
  · rw [hd.2, revise_ne (by simp), revise_ne (by simpa using hne)]
  · rw [hd.2, revise_ne (by simp), revise_self, ha]; rfl
  rw [hd.2, f6, f7]
  refine h.books.change (d' := ⟨s.high, s.low, s.retargets ++ [x.node], s.lowSlots - 1, s.highSlots + min 1 s.lowSlots⟩) hnd hx
    (g := Live.retargeted r) ?_ (ho ▸ transfers_takeOver _ _ _ _) (Core.backed ha hp hr _) ?_ ?_
    (h.books.low_stands hnd hx ?_) (h.books.high_stands hnd hx ?_) (Restands.append h.books.retargets.1 hnot)
  · exact Turbine.handled_iff.2 (.inr ⟨.neutral r, rfl, rfl, .inr (.inr ⟨rfl, rfl, r, rfl⟩)⟩)
  · rw [hs]
    change s.lowSlots - 1 + 1 = s.lowSlots + 0
    omega
  · rw [hs]
    change s.highSlots + min 1 s.lowSlots + 0 = s.highSlots + 1
    omega
  · simp [Turbine.waitsLow, Live.retargeted, hm]
  · simp [Turbine.waitsHigh, Live.retargeted, hm]

omit hx hr in
/-- A member at rest is needed and counted at once (R154). -/
theorem Core.atRest (hi : x.live.owner = none) {g : NeutralStep → NeutralStep} (hg : ∀ k, (g k).row = k.row) (hgacc : ∀ k, (g k).account = k.account.count 1) :
    Taken s r x ((s.needNeutral r).updNeutral r g) := by
  have hacc : ((s.needNeutral r).updNeutral r g).account = revise (.neutral r) Account.atOnce s.account := by
    rw [account_updNeutral _ r hg (f := Account.count 1) fun k _ => hgacc k, account_needNeutral, revise_revise]
    rfl
  have hd : Drives s ((s.needNeutral r).updNeutral r g) :=
    .of_phases rfl rfl (Shaped.of_waves rfl) rfl fun n q => by rw [hacc]; exact revise_phases _ Account.atOnce (fun _ => rfl) _ _
  refine ⟨h.driven hd (neutralRows_updNeutral (neutralRows_needNeutral h.rows r) r hg) ?_, hd,
    fun p hne => by rw [hacc, revise_ne (by simpa using hne)], ⟨a.atOnce, by rw [hacc, revise_self, ha]; rfl, hp⟩, .inl ⟨rfl, hi⟩⟩
  rw [hacc]
  refine h.books.accounts fun o => ?_
  by_cases e : o = .neutral r
  · subst e
    exact .atOnce a 1 ha (by rw [revise_self, ha]; rfl)
  · exact .same (revise_ne e _ _)

end Member

end Sys2Proof.Machine

/-! A gain of the neutral context keeps the invariant (R99, R100, R152, R154). -/

namespace Sys2Proof.Machine

/-- A state on the way of the release of a neutral step at a row, with the members in `rest` still to be handled. -/
structure OnGain (s : State) (r : Nat) (rest : List Nat) (u : State) : Prop where
  core : Core u
  drives : Drives s u
  others : ∀ q, q ≠ r → u.account (.neutral q) = s.account (.neutral q)
  fresh : ∃ a, u.account (.neutral r) = some a ∧ a.phase = .releasing
  todo : ∀ x ∈ u.turbines, x.node ∈ rest → x.config.row = r ∧ x.live.owner ≠ some (.neutral r)
  done : ∀ x ∈ u.turbines, x.config.row = r → x.node ∉ rest → x.live.owner = none ∨ x.live.owner = some (.neutral r)

/-- The release of a neutral step takes on each member that it does not own yet (R154). -/
theorem Core.neutralMember {s : State} (h : Core s) {r : Nat} {a : Account} (ha : s.account (.neutral r) = some a)
    (hp : a.phase = .releasing) {x : Turbine} (hx : x ∈ s.turbines) (hr : x.config.row = r) (hn : x.live.owner ≠ some (.neutral r)) :
    Taken s r x (State.neutralMember r s x.node) := by
  have hfind := h.table.turbine?_of_mem hx
  unfold State.neutralMember
  rw [hfind]
  dsimp only
  cases ho : x.live.owner with
  | none =>
    obtain ⟨hm, hs⟩ := h.books.idle_of_unowned hx ho
    rw [hm, hs]
    dsimp only
    split
    · exact h.atRest ha hp ho (g := fun k => { k with faulted := k.faulted + 1 }) (fun _ => rfl) fun k => by
        simp only [NeutralStep.account, Account.count, Account.mk.injEq, true_and]; omega
    · split
      · exact h.atRest ha hp ho (g := fun k => { k with settled := k.settled + 1 }) (fun _ => rfl) fun k => by
          simp only [NeutralStep.account, Account.count, Account.mk.injEq, true_and]; omega
      · exact h.queueHigh ha hp hx hr ho
  | some o =>
    have hrow := (h.books.owners x hx o ho).1
    cases o with
    | neutral q => exact absurd ho (by rw [← hr, ← hrow] at hn; exact hn)
    | low n q =>
      rcases Turbine.handled_iff.1 (h.books.handled x hx) with ⟨-, -, hn⟩ | ⟨o, ho', -, ⟨hm, hs⟩ | ⟨hm, hs⟩ | ⟨-, -, p, rfl⟩⟩
      · rw [ho] at hn; cases hn
      · have hlow : s.low.contains x.node = true := by
          have : x.node ∈ s.low := h.books.low.2.2 x hx (by simp [Turbine.waitsLow, hm, ho])
          simpa using this
        rw [hm, hs]
        dsimp only
        rw [if_pos hlow]
        exact h.moveToHigh ha hp hx hr ho hm
      · cases ho.symm.trans ho'
        rw [hm, hs]
        exact h.retarget ha hp hx hr ho hm hs
      · cases ho.symm.trans ho'

theorem OnGain.member {s u : State} {r node : Nat} {rest : List Nat} (hrest : node ∉ rest) (h : OnGain s r (node :: rest) u) :
    OnGain s r rest (State.neutralMember r u node) := by
  cases hf : u.turbine? node with
  | none =>
    have e : State.neutralMember r u node = u := by unfold State.neutralMember; rw [hf]
    have hno := State.turbine?_none hf
    rw [e]
    exact { h with
      todo := fun x hx hm => h.todo x hx (List.mem_cons_of_mem _ hm)
      done := fun x hx hr hm => h.done x hx hr fun hc => (List.mem_cons.1 hc).elim (hno x hx) hm }
  | some x =>
    obtain ⟨hx, rfl⟩ := State.turbine?_mem hf
    obtain ⟨hr, hn⟩ := h.todo x hx List.mem_cons_self
    obtain ⟨a, ha, hp⟩ := h.fresh
    have ht := h.core.neutralMember ha hp hx hr hn
    have hnd := h.core.table.nodes_nodup
    refine ⟨ht.core, h.drives.trans ht.drives, fun q hq => (ht.others q hq).trans (h.others q hq), ht.fresh, ?_, ?_⟩
    · intro y hy hm
      rcases ht.turbines with ⟨e, -⟩ | ⟨g, e, -⟩
      · exact h.todo y (e ▸ hy) (List.mem_cons_of_mem _ hm)
      · rcases mem_relive (e ▸ hy) with ⟨hy, -⟩ | ⟨z, -, hz, rfl⟩
        · exact h.todo y hy (List.mem_cons_of_mem _ hm)
        · exact absurd (hz ▸ hm) hrest
    · intro y hy hyr hm
      rcases ht.turbines with ⟨e, ho⟩ | ⟨g, e, ho⟩
      · have hy := e ▸ hy
        by_cases hyx : y.node = x.node
        · obtain rfl := List.inj_on_of_nodup_map hnd hy hx hyx
          exact .inl ho
        · exact h.done y hy hyr fun hc => (List.mem_cons.1 hc).elim hyx hm
      · rcases mem_relive (e ▸ hy) with ⟨hy, hne⟩ | ⟨z, hz, hzx, rfl⟩
        · exact h.done y hy hyr fun hc => (List.mem_cons.1 hc).elim hne hm
        · obtain rfl := List.inj_on_of_nodup_map hnd hz hx hzx
          exact .inr ho

theorem OnGain.members {s u : State} {r : Nat} {rest : List Nat} (hnd : rest.Nodup) (h : OnGain s r rest u) :
    OnGain s r [] (rest.foldl (State.neutralMember r) u) := by
  induction rest generalizing u with
  | nil => exact h
  | cons node rest ih =>
    rw [List.nodup_cons] at hnd
    exact ih hnd.2 (h.member hnd.1)

/-! ### The fresh step -/

/-- The state with a fresh neutral step at a row (R152). -/
def State.withFresh (s : State) (r : Nat) : State := { s with neutral := { s.neutral with steps := withFreshStep r s.neutral.steps } }

theorem neutralRows_withFreshStep {l : List NeutralStep} (h : NeutralRows l) {r : Nat} (hr : r ≤ 15) : NeutralRows (withFreshStep r l) := by
  obtain ⟨hs, h15⟩ := h
  rw [List.pairwise_map] at hs
  refine ⟨?_, fun k hk => ?_⟩
  · rw [List.pairwise_map, withFreshStep, List.pairwise_append, List.pairwise_cons]
    refine ⟨hs.filter _, ⟨fun b hb => ?_, hs.filter _⟩, fun a ha b hb => ?_⟩
    · simpa using (List.mem_filter.1 hb).2
    · have har : a.row < r := by simpa using (List.mem_filter.1 ha).2
      rcases List.mem_cons.1 hb with rfl | hb
      · exact har
      · exact Nat.lt_trans har (by simpa using (List.mem_filter.1 hb).2)
  · rcases List.mem_append.1 hk with hk | hk
    · exact h15 k (List.mem_filter.1 hk).1
    · rcases List.mem_cons.1 hk with rfl | hk
      · exact hr
      · exact h15 k (List.mem_filter.1 hk).1

theorem find?_filter_of_imp {α : Type} {p q : α → Bool} (h : ∀ a, q a = true → p a = true) (l : List α) :
    (l.filter p).find? q = l.find? q := by
  rw [List.find?_filter]
  congr 1
  funext a
  cases hq : q a with
  | false => simp
  | true => simp [h a hq]

theorem find?_filter_eq_none {α : Type} {p q : α → Bool} (h : ∀ a, q a = true → p a = false) (l : List α) :
    (l.filter p).find? q = none :=
  List.find?_eq_none.2 fun a ha hq => by
    have := (List.mem_filter.1 ha).2
    rw [h a hq] at this
    cases this

/-- The step list with a fresh step finds it at its row, and the others at theirs (R152). -/
theorem find?_withFreshStep (l : List NeutralStep) (r q : Nat) :
    (withFreshStep r l).find? (fun k => k.row == q) = if q = r then some { row := r } else l.find? fun k => k.row == q := by
  unfold withFreshStep
  rw [List.find?_append, List.find?_cons]
  rcases Nat.lt_trichotomy q r with hlt | rfl | hlt
  · have hb : (r == q) = false := by simp; omega
    rw [if_neg (by omega), find?_filter_of_imp, find?_filter_eq_none]
    · simp [hb]
    · intro k hk; simp at hk ⊢; omega
    · intro k hk; simp at hk ⊢; omega
  · rw [if_pos rfl, find?_filter_eq_none]
    · simp
    · intro k hk; simp at hk ⊢; omega
  · have hb : (r == q) = false := by simp; omega
    rw [if_neg (by omega), find?_filter_eq_none, find?_filter_of_imp]
    · simp [hb]
    · intro k hk; simp at hk ⊢; omega
    · intro k hk; simp at hk ⊢; omega

/-- A fresh step's account opens at its row, and no other account changes. -/
theorem account_withFresh (s : State) (r : Nat) : (s.withFresh r).account (.neutral r) = some ⟨.releasing, 0, 0⟩ ∧
    ∀ o, o ≠ .neutral r → (s.withFresh r).account o = s.account o := by
  refine ⟨?_, fun o ho => ?_⟩
  · simp only [State.account, State.neutralStep?, State.withFresh, find?_withFreshStep, if_true]
    rfl
  · cases o with
    | low n q => rfl
    | neutral q =>
      have hq : q ≠ r := fun e => ho (by rw [e])
      simp only [State.account, State.neutralStep?, State.withFresh, find?_withFreshStep, if_neg hq]

theorem OnGain.fresh_step {s : State} (h : Core s) {r : Nat} (hr : r ≤ 15) (hb : ¬Busy (s.account (.neutral r))) :
    OnGain s r ((s.withFresh r).members r) (s.withFresh r) := by
  obtain ⟨hnew, hsame⟩ := account_withFresh s r
  have hd : Drives s (s.withFresh r) := .of_phases rfl rfl (Shaped.of_waves rfl) rfl fun n q => by rw [hsame _ (by simp)]
  have hu := h.books.unowned hb
  refine ⟨h.driven hd (neutralRows_withFreshStep h.rows hr) (h.books.accounts fun o => ?_), hd, fun q hq => hsame _ (by simpa using hq),
    ⟨_, hnew, rfl⟩, fun x hx hm => ?_, fun x hx hxr hm => ?_⟩
  · by_cases e : o = .neutral r
    · subst e
      refine .unowned hu fun x hx => .inr ?_
      rw [hnew] at hx
      cases hx
      rfl
    · exact .same (hsame o e)
  · exact ⟨(h.table.mem_members_of_mem hx).1 hm, ownedIn_eq_zero.1 hu x hx⟩
  · exact absurd ((h.table.mem_members_of_mem hx).2 hxr) hm

end Sys2Proof.Machine

/-! The gain of a neutral step, whole; the NEUTRAL request and the entry to RETURN (R102, R149, R151 to R154). -/

namespace Sys2Proof.Machine

theorem Drives.enterDone {s : State} (h : WavesOk s) (n r : Nat) : Drives s (s.enterDone n r) := by
  obtain ⟨hs, acc, rfl, ha⟩ := account_enterDone h n r
  have hw := WavesOnly.enterDone s n r
  have ht : Tames s.account (revise (.low n r) Account.close s.account) :=
    tames_revise (fun a _ hp => by rcases hp with hp | hp <;> cases hp) fun _ _ _ => rfl
  refine ⟨hw.layout, hw.waveCounter, hs, hw.mode, ht.trans ha.tames, fun m q hb => ?_⟩
  have hmid : Busy (revise (.low n r) Account.close s.account (.low m q)) ∨ Ended (revise (.low n r) Account.close s.account (.low m q)) := by
    by_cases e : Owner.low m q = .low n r
    · rw [e, revise_self]
      refine .inr fun x hx => ?_
      obtain ⟨a, -, rfl⟩ := Option.map_eq_some_iff.1 (Option.mem_def.1 hx)
      rfl
    · rwa [revise_ne e]
  rcases ha (.low m q) with e | ⟨-, e⟩
  · rwa [e]
  · exact .inr e

/-- A step that owns no turbine has ended once it has entered DONE. -/
theorem ended_enterDone {s : State} (h : WavesOk s) (n r : Nat) : Ended ((s.enterDone n r).account (.low n r)) := by
  obtain ⟨-, acc, rfl, ha⟩ := account_enterDone h n r
  have hend : Ended (revise (.low n r) Account.close s.account (.low n r)) := fun x hx => by
    rw [revise_self] at hx
    obtain ⟨a, -, rfl⟩ := Option.map_eq_some_iff.1 (Option.mem_def.1 hx)
    rfl
  rcases ha (.low n r) with e | ⟨-, e⟩
  · rwa [e]
  · exact e

/-- The LOW steps that were moving turbines at a row that owns none any more enter DONE (R100). -/
theorem Core.enterDoneAll {r : Nat} (l : List Nat) {s : State} (h : Core s) (hu : ∀ n, ownedIn s.turbines (.low n r) = 0) :
    Core (l.foldl (fun s n => s.enterDone n r) s) ∧ Drives s (l.foldl (fun s n => s.enterDone n r) s) ∧
      WavesOnly s (l.foldl (fun s n => s.enterDone n r) s) ∧
      ∀ n ∈ l, Ended ((l.foldl (fun s n => s.enterDone n r) s).account (.low n r)) := by
  induction l generalizing s with
  | nil => exact ⟨h, Drives.refl s, WavesOnly.refl s, by simp⟩
  | cons n l ih =>
    have hw := WavesOnly.enterDone s n r
    obtain ⟨h1, h2, h3, h4⟩ := ih (h.enterDone (hu n)).1 fun m => by rw [hw.turbines]; exact hu m
    refine ⟨h1, (Drives.enterDone h.waves n r).trans h2, hw.trans h3, fun m hm => ?_⟩
    rcases List.mem_cons.1 hm with rfl | hm
    · exact (h2.tames m r).2 (ended_enterDone h.waves m r)
    · exact h4 m hm

/-- The steps that are moving turbines at a row stand in the list of their waves (R100). -/
theorem Core.mem_releasedAt {s : State} (h : Core s) {n r : Nat} (hb : Busy (s.account (.low n r))) : n ∈ s.releasedAt r := by
  obtain ⟨a, ha, hp⟩ := hb
  obtain ⟨w, hw, rfl, st, hst, hr, rfl⟩ := (account_low_eq_some h.waves).1 ha
  refine List.mem_map.2 ⟨w, List.mem_filter.2 ⟨hw, ?_⟩, rfl⟩
  have hrun : w.running = true := by
    cases hr : w.running with
    | true => rfl
    | false =>
      rw [(h.waves.2.2.2.2.2.2 w hw).2.2 hr] at hst
      cases hst
  rw [hrun, Bool.true_and, List.any_eq_true]
  refine ⟨st, hst, ?_⟩
  rcases (phase_active_iff _).1 hp with e | e <;> simp [hr, e]

/-- The state of a fresh neutral step whose members are all handled (R154). -/
def NeutralStep.decide (queued : Bool) (k : NeutralStep) : NeutralStep :=
  { k with state := if k.complete then .done else if queued then .releasing else .moving }

/-- The account of a fresh neutral step whose members are all handled. -/
def Account.decide (queued : Bool) (a : Account) : Account :=
  a.enter (if a.needed = a.counted then .ended else if queued then .releasing else .moving)

theorem NeutralStep.decide_account (queued : Bool) (k : NeutralStep) : (k.decide queued).account = k.account.decide queued := by
  unfold NeutralStep.decide Account.decide
  by_cases hc : k.complete = true
  · rw [if_pos hc, if_pos (k.complete_iff.1 hc)]; rfl
  · rw [if_neg hc, if_neg fun e => hc (k.complete_iff.2 e)]
    cases queued <;> rfl

theorem State.freshNeutral_eq (s : State) (r : Nat) : s.freshNeutral r =
    (((s.skipAt r .neutral).releasedAt r).foldl (fun s num => s.enterDone num r)
      ((((s.skipAt r .neutral).withFresh r).members r).foldl (State.neutralMember r) ((s.skipAt r .neutral).withFresh r))).updNeutral r
      (NeutralStep.decide
        ((((s.skipAt r .neutral).releasedAt r).foldl (fun s num => s.enterDone num r)
          ((((s.skipAt r .neutral).withFresh r).members r).foldl (State.neutralMember r) ((s.skipAt r .neutral).withFresh r))).neutralQueued r)) :=
  rfl

/-- What a gain at a row leaves: the invariant within the event, and no busy LOW step at the row. -/
structure GainedAt (s : State) (r : Nat) (t : State) : Prop where
  core : Core t
  apart : Apart t.account
  drives : Drives s t
  free : ∀ n, ¬Busy (t.account (.low n r))

theorem Core.freshNeutral {s : State} (h : Core s) (ap : Apart s.account) {r : Nat} (hr : r ≤ 15)
    (hb : ¬Busy (s.account (.neutral r))) : GainedAt s r (s.freshNeutral r) := by
  rw [State.freshNeutral_eq]
  have hset := Settling.skipAt h.waves r .neutral
  have hnacc : ∀ q, (s.skipAt r .neutral).account (.neutral q) = s.account (.neutral q) := fun q => by
    simp only [State.account, State.neutralStep?, hset.aside.neutral]
  have h1 := hset.core h
  set s1 := s.skipAt r .neutral
  have hg := (OnGain.fresh_step h1 hr (by rw [hnacc]; exact hb)).members
    ((rowTableOk_of_layout rfl h1.table : RowTableOk (s1.withFresh r)).members_nodup hr)
  set s3 := ((s1.withFresh r).members r).foldl (State.neutralMember r) (s1.withFresh r)
  have hunowned : ∀ n, ownedIn s3.turbines (.low n r) = 0 := fun n => ownedIn_eq_zero.2 fun x hx ho => by
    have hxr : x.config.row = r := (hg.core.books.owners x hx _ ho).1.symm
    rcases hg.done x hx hxr (by simp) with e | e <;> rw [ho] at e <;> cases e
  obtain ⟨c4, d4, w4, e4⟩ := hg.core.enterDoneAll (s1.releasedAt r) hunowned
  set s4 := (s1.releasedAt r).foldl (fun s num => s.enterDone num r) s3
  have hnacc4 : ∀ q, s4.account (.neutral q) = s3.account (.neutral q) := fun q => by
    simp only [State.account, State.neutralStep?, w4.neutral]
  have hfree : ∀ n, ¬Busy (s4.account (.low n r)) := fun n hbusy => by
    have hin := h1.mem_releasedAt ((hg.drives.tames n r).1 ((d4.tames n r).1 hbusy))
    exact (e4 n hin).not_busy hbusy
  obtain ⟨a, ha, hp⟩ := hg.fresh
  rw [← hnacc4] at ha
  have hacc : (s4.updNeutral r (NeutralStep.decide (s4.neutralQueued r))).account =
      revise (.neutral r) (Account.decide (s4.neutralQueued r)) s4.account :=
    account_updNeutral s4 r (g := NeutralStep.decide (s4.neutralQueued r)) (f := Account.decide (s4.neutralQueued r)) (fun _ => rfl)
      fun k _ => k.decide_account _
  have hlow : ∀ n q, (s4.updNeutral r (NeutralStep.decide (s4.neutralQueued r))).account (.low n q) = s4.account (.low n q) := fun n q => by
    rw [hacc, revise_ne (by simp)]
  have d5 : Drives s4 (s4.updNeutral r (NeutralStep.decide (s4.neutralQueued r))) :=
    .of_phases rfl rfl (Shaped.of_waves rfl) rfl fun n q => by rw [hlow]
  refine ⟨c4.driven d5 (neutralRows_updNeutral c4.rows r fun _ => rfl) ?_, fun n q hn hl => ?_,
    (Drives.of_settling hset).trans (hg.drives.trans (d4.trans d5)), fun n => by rw [hlow]; exact hfree n⟩
  · rw [hacc]
    refine c4.books.accounts fun o => ?_
    by_cases e : o = .neutral r
    · subst e
      rw [revise_self, ha]
      by_cases hc : a.needed = a.counted
      · refine .unowned ?_ fun y hy => .inl ?_
        · have := c4.books.counts _ a ha (by rw [hp]; simp)
          omega
        · cases hy
          simp [Account.decide, Account.enter, hc]
      · cases hq : s4.neutralQueued r with
        | true => exact .same (by simp [Account.decide, Account.enter, hc, ← hp])
        | false => exact .moving a rfl hp (by simp [Account.decide, Account.enter, hc]) (c4.not_queued_neutral hq)
    · exact .same (revise_ne e _ _)
  · rw [hlow] at hl
    by_cases e : q = r
    · subst e
      exact hfree n hl
    · rw [hacc, revise_ne (by simpa using e), hnacc4, hg.others q e, hnacc] at hn
      exact ap n q hn ((hset.accounts.tames n q).1 ((hg.drives.tames n q).1 ((d4.tames n q).1 hl)))

theorem Core.gainNeutral {s : State} (h : Core s) (ap : Apart s.account) {r : Nat} (hr : r ≤ 15) : GainedAt s r (s.gainNeutral r) := by
  have hdone : ∀ k, s.neutralStep? r = some k → (Busy (s.account (.neutral r)) ↔ k.state ≠ .done) := fun k hk => by
    rw [State.account, hk]
    cases hs : k.state <;> simp [Busy, NeutralStep.account, NeutralState.phase, hs]
  unfold State.gainNeutral
  split
  · rename_i k hk
    split
    · rename_i hd; exact h.freshNeutral ap hr fun hb => (hdone k hk).1 hb hd
    · rename_i hd
      have hset := Settling.skipAt h.waves r .neutral
      have hn : ∀ q, (s.skipAt r .neutral).account (.neutral q) = s.account (.neutral q) := fun q => by
        simp only [State.account, State.neutralStep?, hset.aside.neutral]
      have ap' : Apart (s.skipAt r .neutral).account := fun n q hb hl => ap n q (hn q ▸ hb) ((hset.accounts.tames n q).1 hl)
      exact ⟨hset.core h, ap', Drives.of_settling hset, fun n => ap' n r (by rw [hn]; exact (hdone k hk).2 hd)⟩
  · rename_i hk
    refine h.freshNeutral ap hr ?_
    rw [State.account, hk]
    rintro ⟨_, hx, -⟩
    cases hx

/-! ### Gains at several rows -/

/-- The invariant within an event. -/
structure Gaining (s : State) : Prop where
  core : Core s
  apart : Apart s.account

theorem Gaining.settle {s t : State} (h : Gaining s) (a : Settling s t) : Gaining t := by
  refine ⟨a.core h.core, fun n q hn hl => h.apart n q ?_ ((a.accounts.tames n q).1 hl)⟩
  simpa only [State.account, State.neutralStep?, a.aside.neutral] using hn

/-- A change that the books and the accounts do not see. -/
theorem Gaining.same {s t : State} (h : Gaining s) (layout : t.layout = s.layout) (counter : t.waveCounter = s.waveCounter)
    (waves : t.waves = s.waves) (steps : t.neutral.steps = s.neutral.steps) (turbines : t.turbines = s.turbines) (desk : t.desk = s.desk) :
    Gaining t ∧ t.account = s.account := by
  have hacc : t.account = s.account := by
    funext o
    cases o <;> simp only [State.account, State.step?, State.wave?, State.neutralStep?, waves, steps]
  exact ⟨⟨h.core.change layout counter (Shaped.of_waves waves) (steps ▸ h.core.rows) (hacc ▸ Tames.refl _)
    (by rw [hacc, turbines, desk]; exact h.core.books), hacc ▸ h.apart⟩, hacc⟩

theorem Sound.gaining {s : State} (h : Sound s) : Gaining s := ⟨h.toCore, h.apart⟩

theorem Gaining.setMask {s : State} (h : Gaining s) (r : Nat) (b : Bool) : Gaining (s.setMask r b) :=
  (h.same (layout_setMask s r b) rfl rfl rfl rfl rfl).1

theorem Gaining.completeWaves {s : State} (h : Gaining s) : Gaining s.completeWaves := h.settle (Settling.completeWaves h.core.waves)

theorem neutralRows_gaining (rs : List Nat) {s : State} (h : Gaining s) (hrs : ∀ r ∈ rs, r < 16) :
    Gaining (s.neutralRows rs) ∧ (s.neutralRows rs).mode = s.mode := by
  unfold State.neutralRows
  induction rs generalizing s with
  | nil => exact ⟨h, rfl⟩
  | cons r rs ih =>
    have hm := h.setMask r true
    have hg := hm.core.gainNeutral hm.apart (Nat.le_of_lt_succ (hrs r List.mem_cons_self))
    have hc := (Gaining.mk hg.core hg.apart).completeWaves
    obtain ⟨h1, h2⟩ := ih hc fun q hq => hrs q (List.mem_cons_of_mem _ hq)
    exact ⟨h1, h2.trans ((WavesOnly.completeWaves _).mode.trans hg.drives.mode)⟩

/-- A NEUTRAL request keeps the invariant (R153). -/
theorem Sound.neutral {s : State} (h : Sound s) (c : NeutralCause) (rs : List Nat) (hm : s.mode = .steer) (hrs : ∀ r ∈ rs, r < 16) :
    Sound ((s.setNeutralCause c).neutralRows rs).judgeNeutral := by
  have h1 : Gaining (s.setNeutralCause c) := (h.gaining.same (t := s.setNeutralCause c) rfl rfl rfl rfl rfl rfl).1
  obtain ⟨h2, hmode⟩ := neutralRows_gaining rs h1 hrs
  have hsteer : ((s.setNeutralCause c).neutralRows rs).mode = .steer := hmode.trans hm
  exact h2.core.judgeNeutral h2.apart (fun e => by cases hsteer.symm.trans e) fun e => by cases hsteer.symm.trans e

/-! ### The entry to RETURN (R102, R149) -/

/-- Every LOW step has been released or has ended. -/
def AllReleased (acc : Owner → Option Account) : Prop := ∀ n r, Busy (acc (.low n r)) ∨ Ended (acc (.low n r))

/-- The steps of RUNNING waves stand among the step keys. -/
theorem mem_stepKeys {s : State} (h : WavesOk s) {n r : Nat} {a : Account} (ha : s.account (.low n r) = some a) : (n, r) ∈ s.stepKeys := by
  obtain ⟨w, hw, rfl, st, hst, rfl, -⟩ := (account_low_eq_some h).1 ha
  refine List.mem_flatMap.2 ⟨w, List.mem_filter.2 ⟨hw, ?_⟩, List.mem_map_of_mem hst⟩
  cases hr : w.running with
  | true => rfl
  | false =>
    rw [(h.2.2.2.2.2.2 w hw).2.2 hr] at hst
    cases hst

theorem ended_revise_close (acc : Owner → Option Account) (o : Owner) : Ended (revise o Account.close acc o) := fun x hx => by
  rw [revise_self] at hx
  obtain ⟨a, -, rfl⟩ := Option.map_eq_some_iff.1 (Option.mem_def.1 hx)
  rfl

/-- A step that an entry to RETURN has seen has been released or has ended (R102). -/
theorem released_returnStep (s : State) (k : Nat × Nat) :
    Busy ((s.returnStep k).account (.low k.1 k.2)) ∨ Ended ((s.returnStep k).account (.low k.1 k.2)) := by
  unfold State.returnStep
  split
  · rename_i hst
    refine .inr fun x hx => ?_
    simp [State.account, hst] at hx
  · rename_i st hst
    split
    · have e := account_updStep (s.dropHold k.1 k.2) k.1 k.2
        (g := fun x => { x with state := .cancelled, owesTest := false, owesDeadline := false }) (f := Account.close) (fun _ => rfl)
        fun _ _ => rfl
      refine .inr ?_
      rw [State.cancelStep, e]
      exact ended_revise_close _ _
    · rename_i hno
      have hacc : s.account (.low k.1 k.2) = some st.account := by simp [State.account, hst]
      rw [hacc]
      cases hs : st.state <;> simp [Busy, Ended, WaveStep.account, StepState.phase, hs] at hno ⊢

/-- The first part of an entry to RETURN leaves no step of the keys unreleased (R102). -/
theorem returnSteps_released (l : List (Nat × Nat)) (s : State) : Settling s (l.foldl State.returnStep s) ∧
    ∀ k ∈ l, Busy ((l.foldl State.returnStep s).account (.low k.1 k.2)) ∨ Ended ((l.foldl State.returnStep s).account (.low k.1 k.2)) := by
  induction l generalizing s with
  | nil => exact ⟨Settling.refl s, by simp⟩
  | cons k l ih =>
    obtain ⟨h1, h2⟩ := ih (s.returnStep k)
    refine ⟨(Settling.returnStep k).trans h1, fun m hm => ?_⟩
    rcases List.mem_cons.1 hm with rfl | hm
    · exact (Drives.of_settling h1).released _ _ (released_returnStep s m)
    · exact h2 m hm

theorem Gaining.gains (rs : List Nat) {s : State} (h : Gaining s) (hrs : ∀ r ∈ rs, r ≤ 15) :
    Gaining (rs.foldl State.gainNeutral s) ∧ Drives s (rs.foldl State.gainNeutral s) ∧
      ∀ r ∈ rs, ∀ n, ¬Busy ((rs.foldl State.gainNeutral s).account (.low n r)) := by
  induction rs generalizing s with
  | nil => exact ⟨h, Drives.refl s, by simp⟩
  | cons r rs ih =>
    have hg := h.core.gainNeutral h.apart (hrs r List.mem_cons_self)
    obtain ⟨h1, h2, h3⟩ := ih ⟨hg.core, hg.apart⟩ fun q hq => hrs q (List.mem_cons_of_mem _ hq)
    refine ⟨h1, hg.drives.trans h2, fun q hq n => ?_⟩
    rcases List.mem_cons.1 hq with rfl | hq
    · exact fun hb => hg.free n ((h2.tames n q).1 hb)
    · exact h3 q hq n

/-- Where every wave is finished, completion empties the queue (R71). -/
theorem completeWaves_nil {s : State} (h : ∀ w ∈ s.waves, w.finished = true) : s.completeWaves.waves = [] := by
  have key : ∀ (l : List Wave) (u : State), (l.foldl State.completeWave u).waves = u.waves.filter fun x => l.all fun w => x.num != w.num := by
    intro l
    induction l with
    | nil => intro u; simp
    | cons w l ih =>
      intro u
      rw [List.foldl_cons, ih]
      change List.filter _ (u.waves.filter fun x => x.num != w.num) = _
      rw [List.filter_filter]
      simp [Bool.and_comm]
  have hall : s.waves.filter Wave.finished = s.waves := List.filter_eq_self.2 h
  rw [State.completeWaves, hall, key]
  refine List.filter_eq_nil_iff.2 fun w hw hc => ?_
  have := List.all_eq_true.1 hc w hw
  simp at this

/-- The judgement of the neutral context within an event. -/
theorem Gaining.judgeNeutral {s : State} (h : Gaining s) : Gaining s.judgeNeutral ∧ Judged s.judgeNeutral.neutral ∧
    s.judgeNeutral.waves = s.waves ∧ s.judgeNeutral.mode = s.mode ∧ ∀ n r, s.judgeNeutral.account (.low n r) = s.account (.low n r) := by
  obtain ⟨h1, -⟩ := h.same (t := s.setMode .steer s.cause) rfl rfl rfl rfl rfl rfl
  have h2 : Sound (s.setMode .steer s.cause).judgeNeutral :=
    h1.core.judgeNeutral h1.apart (fun e => by cases e) fun e => by cases e
  have e : s.judgeNeutral = (s.setMode .steer s.cause).judgeNeutral.setMode s.mode s.cause := by
    unfold State.judgeNeutral
    change (if (s.neutral.steps.all fun n => n.state == .done) = true then _ else _) =
      State.setMode (if (s.neutral.steps.all fun n => n.state == .done) = true then _ else _) s.mode s.cause
    split <;> rfl
  obtain ⟨h3, -⟩ := h2.gaining.same (t := (s.setMode .steer s.cause).judgeNeutral.setMode s.mode s.cause) rfl rfl rfl rfl rfl rfl
  rw [← e] at h3
  have hj : Judged s.judgeNeutral.neutral := by rw [e]; exact h2.judged
  have hw : s.judgeNeutral.waves = s.waves := by unfold State.judgeNeutral; split <;> rfl
  refine ⟨h3, hj, hw, ?_, fun n r => ?_⟩
  · unfold State.judgeNeutral; split <;> rfl
  · simp only [State.account, State.step?, State.wave?, hw]

/-- The first part of an entry to RETURN: no step is left unreleased (R102). -/
theorem Gaining.returnSteps {s : State} (h : Gaining s) (hrun : ∀ w ∈ s.waves, w.running = true) :
    Gaining (s.stepKeys.foldl State.returnStep s) ∧ (s.stepKeys.foldl State.returnStep s).mode = s.mode ∧
      (∀ w ∈ (s.stepKeys.foldl State.returnStep s).waves, w.running = true) ∧
      AllReleased (s.stepKeys.foldl State.returnStep s).account := by
  obtain ⟨hset, hkeys⟩ := returnSteps_released s.stepKeys s
  refine ⟨h.settle hset, hset.aside.mode, hset.shaped.running hrun, fun m r => ?_⟩
  rcases hset.accounts (.low m r) with e | ⟨-, e⟩
  · cases ha : s.account (.low m r) with
    | none =>
      rw [ha] at e
      exact .inr fun x hx => by rw [e] at hx; cases hx
    | some a => exact hkeys (m, r) (mem_stepKeys h.core.waves ha)
  · exact .inr e

/-- A gain at every row ends every step that was released, so that every wave completes (R149, R154). -/
theorem Gaining.completeAll {s : State} (h : Gaining s) (hrun : ∀ w ∈ s.waves, w.running = true) (hrel : AllReleased s.account)
    (hmode : s.mode = .returning) : Sound ((List.range 16).foldl State.gainNeutral s).judgeNeutral.completeWaves := by
  obtain ⟨h3, hdr, hfree⟩ := h.gains (List.range 16) fun r hr => Nat.le_of_lt_succ (List.mem_range.1 hr)
  generalize (List.range 16).foldl State.gainNeutral s = s3 at *
  obtain ⟨h4, hj, hw4, hm4, hacc4⟩ := h3.judgeNeutral
  have hrun4 : ∀ w ∈ s3.judgeNeutral.waves, w.running = true := hw4 ▸ hdr.shaped.running hrun
  generalize s3.judgeNeutral = s4 at *
  have hfin : ∀ w ∈ s4.waves, w.finished = true := fun w hw => by
    rw [Wave.finished, hrun4 w hw, Bool.true_and, List.all_eq_true]
    intro st hst
    have h15 : st.row ≤ 15 := (h4.core.waves.2.2.2.2.2.2 w hw).2.1 st hst
    have hend := (hdr.released _ _ (hrel w.num st.row)).resolve_left
      (hfree st.row (List.mem_range.2 (Nat.lt_succ_of_le h15)) w.num)
    rw [← hacc4] at hend
    exact (ended_low_iff h4.core.waves hw).1 hend st hst rfl
  have hset5 := Settling.completeWaves h4.core.waves
  have h5 := h4.settle hset5
  have hm5 : s4.completeWaves.mode = .returning := (hset5.aside.mode.trans (hm4.trans hdr.mode)).trans hmode
  exact
    { toCore := h5.core
      apart := h5.apart
      judged := hset5.aside.neutral ▸ hj
      pass := fun e => by cases hm5.symm.trans e
      returning := fun _ => completeWaves_nil hfin }

theorem Gaining.setNeutralCause {s : State} (h : Gaining s) (c : NeutralCause) :
    Gaining (s.setNeutralCause c) ∧ (s.setNeutralCause c).account = s.account := h.same rfl rfl rfl rfl rfl rfl

theorem State.enterReturn_eq (s : State) (c : ModeCause) (n : NeutralCause) : s.enterReturn c n =
    ((List.range 16).foldl State.gainNeutral
      ((((s.setMode .returning c).discardForming.stepKeys.foldl State.returnStep (s.setMode .returning c).discardForming)).setNeutralCause
        n)).judgeNeutral.completeWaves.notifyMode := rfl

/-- An entry to RETURN keeps the invariant: every step has ended once every row has gained its neutral step. -/
theorem Sound.enterReturn {s : State} (h : Sound s) (c : ModeCause) (n : NeutralCause) : Sound (s.enterReturn c n) := by
  obtain ⟨h1, -⟩ := h.discardForming.gaining.same (t := (s.setMode .returning c).discardForming) rfl rfl rfl rfl rfl rfl
  obtain ⟨h2, hm2, hrun2, hrel2⟩ := h1.returnSteps fun w hw => (List.mem_filter.1 hw).2
  rw [State.enterReturn_eq]
  generalize (s.setMode .returning c).discardForming.stepKeys.foldl State.returnStep (s.setMode .returning c).discardForming = s2 at *
  obtain ⟨h3, hacc⟩ := h2.setNeutralCause n
  exact Sound.of_ledger (ledger_notify _ _) (h3.completeAll hrun2 (hacc ▸ hrel2) hm2)

end Sys2Proof.Machine

/-!
O10 put together: the invariant of a unit at rest, each part that a command is put together from, the configuring requests, which are
taken in PASS, and the step.
-/

namespace Sys2Proof.Machine

/-! ### A unit at rest -/

/-- No wave, no neutral step, no request and no slot, and every turbine idle. -/
structure Resting (s : State) : Prop where
  waves : s.waves = []
  neutral : s.neutral = ⟨false, none, []⟩
  desk : s.desk = ⟨[], [], [], 0, 0⟩
  idle : ∀ x ∈ s.turbines, x.live.move = .idle ∧ x.live.slot = none ∧ x.live.owner = none

theorem wavesOk_of_none {s : State} (hp : PlansOk s) (hc : s.waveCounter ≤ 255) (hw : s.waves = []) : WavesOk s := by
  refine ⟨hp, hc, ?_⟩
  simp [hw]

theorem Resting.books {s : State} (h : Resting s) : Books s.account s.turbines s.desk := by
  have hacc : ∀ o, s.account o = none := not_busy_of_empty h.waves (by rw [h.neutral])
  have hnamed : ∀ waits : Turbine → Bool, (∀ x ∈ s.turbines, waits x = false) → Named s.turbines [] waits := fun waits hw =>
    ⟨List.nodup_nil, by simp, fun x hx e => by rw [hw x hx] at e; cases e⟩
  have hcount : ∀ c : SlotClass, (s.turbines.countP fun x => x.live.slot == some c) = 0 := fun c =>
    List.countP_eq_zero.2 fun x hx => by simp [(h.idle x hx).2.1]
  rw [h.desk]
  exact
    { handled := fun x hx => Turbine.handled_iff.2 (.inl (h.idle x hx))
      owners := fun x hx o e => by rw [(h.idle x hx).2.2] at e; cases e
      counts := fun o a e => by rw [hacc o] at e; cases e
      lowSlots := (hcount .low).symm
      highSlots := (hcount .high).symm
      low := hnamed _ fun x hx => by simp [Turbine.waitsLow, (h.idle x hx).1]
      high := hnamed _ fun x hx => by simp [Turbine.waitsHigh, (h.idle x hx).1]
      retargets := hnamed _ fun x hx => by simp [Turbine.retargeting, (h.idle x hx).1] }

/-- A unit at rest keeps the invariant in every mode (R142, R151). -/
theorem Resting.sound {s : State} (h : Resting s) (ht : RowTableOk s) (hp : PlansOk s) (hc : s.waveCounter ≤ 255) : Sound s where
  table := ht
  waves := wavesOk_of_none hp hc h.waves
  ordered := by simp [Ordered, h.waves]
  rows := by simp [NeutralRows, h.neutral]
  books := h.books
  apart n r hb := by
    obtain ⟨a, ha, -⟩ := hb
    rw [not_busy_of_empty h.waves (by rw [h.neutral])] at ha
    cases ha
  judged := by simp [Judged, h.neutral]
  pass _ := ⟨h.waves, by rw [h.neutral]⟩
  returning _ := h.waves

/-- In PASS the unit is at rest. -/
theorem Sound.resting {s : State} (h : Sound s) (hm : s.mode = .pass) : Resting s := by
  obtain ⟨hw, ha⟩ := h.pass hm
  have hacc : ∀ o, ¬Busy (s.account o) := fun o hb => by
    obtain ⟨a, e, -⟩ := hb
    rw [not_busy_of_empty hw (h.judged.idle ha)] at e
    cases e
  have hown : ∀ x ∈ s.turbines, x.live.owner = none := fun x hx =>
    Option.eq_none_iff_forall_ne_some.2 fun o e => hacc o (h.books.owners x hx o e).2.busy
  obtain ⟨e1, e2, e3, e4, e5⟩ := h.books.nothing hacc
  refine ⟨hw, h.judged.2 ha, ?_, fun x hx => ?_⟩
  · calc s.desk = ⟨s.desk.high, s.desk.low, s.desk.retargets, s.desk.lowSlots, s.desk.highSlots⟩ := rfl
      _ = ⟨[], [], [], 0, 0⟩ := by rw [e1, e2, e3, e4, e5]
  · obtain ⟨hmove, hslot⟩ := h.books.idle_of_unowned hx (hown x hx)
    exact ⟨hmove, hslot, hown x hx⟩

/-- What the loss of D and a restart clear leaves the unit at rest (R159, R161). -/
theorem Sound.cleared {s : State} (h : Sound s) (c : ModeCause) : Sound (s.clearSteering.setMode .pass c) := by
  have hr : Resting (s.clearSteering.setMode .pass c) := ⟨rfl, rfl, rfl, fun x hx => by
    obtain ⟨y, -, rfl⟩ := List.mem_map.1 hx
    exact ⟨rfl, rfl, rfl⟩⟩
  refine hr.sound (rowTableOk_of_layout ?_ h.table) h.waves.1 h.waves.2.1
  simp only [State.layout, State.clearSteering, State.setMode, List.map_map, Function.comp_def]
  rfl

/-! ### The parts of the commands -/

/-- A report changes nothing that the books read of a record (R8). -/
theorem Sound.tap {s : State} (h : Sound s) {x : Turbine} (f : Format) (r : ReportBody) (k : Nat) (hx : s.turbine? x.node = some x) :
    Sound (s.updLive x.node fun _ => x.live.report f r k) := by
  have e : (s.updLive x.node fun _ => x.live.report f r k) = s.updLive x.node fun l => l.report f r k := by
    simp only [State.updLive]
    congr 1
    refine List.map_congr_left fun y hy => ?_
    split
    · rename_i hn
      have : y = x := Option.some.inj ((h.table.turbine?_of_mem hy).symm.trans (hn ▸ hx))
      rw [this]
    · rfl
  rw [e]
  exact h.updLive x.node fun _ => rfl

theorem sound_evolves : Evolves fun s t => Sound s → Sound t where
  refl _ h := h
  trans a b h := b (a h)
  inert e h := h.of_ledger e
  sources s g hg h := h.live_change (by
    have e : ∀ l : List Source, (l.map g).map (fun x => (x.kind, x.node)) = l.map fun x => (x.kind, x.node) := fun l => by
      simp [List.map_map, Function.comp_def, hg]
    simp only [State.layout, e]
    rfl) rfl rfl rfl rfl h.books
  live _ _ hg h := h.live hg
  tap _ _ f r k hx h := h.tap f r k hx
  waves _ _ hg h := h.waves_books hg
  masks s r b h := h.live_change (layout_setMask s r b) rfl rfl rfl rfl h.books
  settleAfter _ released h := h.settleAfter released
  stall _ _ hx hm h := h.stall hx hm
  report _ _ hx h := h.arbiterReport hx
  arbiterStep e h := h.arbiterStep e
  release _ _ _ hc h := h.release hc
  complete _ _ _ hw hf h := (Settling.completeWave fun x hx => by
    rw [(State.wave?_mem hw).2] at hx
    exact Option.some.inj (hw.symm.trans hx) ▸ hf).sound h
  ends _ he h := h.endToPass he
  close _ h := h.closeForming.1
  intake _ set last items hm h := h.intake hm set last items
  foldIn _ set items h := h.foldItems set items
  enterReturn _ c n _ h := h.enterReturn c n
  enterDrain _ _ h := h.enterDrain
  veer _ old new h := h.veer old new
  clear e h := by
    obtain ⟨c, e⟩ := e
    exact (h.cleared c).of_ledger e
  steer _ e h := by
    obtain ⟨c, e⟩ := e
    exact (h.setMode c (fun e => by cases e) fun e => by cases e).of_ledger e
  skipAt _ r x h := (Settling.skipAt h.waves r x).sound h
  neutral _ c rs hm hrs h := h.neutral c rs hm hrs

/-! ### The configuring requests -/

theorem plansOk_putPlan {s : State} (h : PlansOk s) (sector : Nat) {p : Option Plan} (hp : ∀ q ∈ p, q.ok) : PlansOk (s.putPlan sector p) := by
  intro q hq
  obtain ⟨i, hi, e⟩ := List.mem_iff_getElem.1 hq
  simp only [State.putPlan, Vector.getElem_toList, Vector.getElem_setIfInBounds] at e
  split at e
  · exact hp q (by rw [e]; rfl)
  · exact h q (e ▸ by simp)

theorem Sound.configured {s t : State} (h : Sound s) (c : Configured s t) : Sound t := by
  have rest : ∀ u : State, t.ledger = u.ledger → Resting u → RowTableOk u → PlansOk u → u.waveCounter ≤ 255 → Sound t :=
    fun u e hr ht hp hc => (hr.sound ht hp hc).of_ledger e
  have hplans : PlansOk s := h.waves.1
  have hcounter : s.waveCounter ≤ 255 := h.waves.2.1
  cases c with
  | refused e => exact h.of_ledger e
  | parameter n v _ e =>
    have hp : Sound (s.putParam n v) := ⟨⟨h.table, h.waves, h.ordered, h.rows, h.books⟩, h.apart, h.judged, h.pass, h.returning⟩
    exact hp.of_ledger e
  | loaded node c hm hl e =>
    have hr := h.resting hm
    have ht := rowTableOk_loadEntry h.table hl
    rw [State.loadEntry_eq] at e ht
    refine rest _ e ⟨hr.waves, hr.neutral, hr.desk, fun x hx => ?_⟩ ht hplans hcounter
    rcases State.mem_putEntry.1 hx with rfl | ⟨hx, -⟩
    · exact ⟨rfl, rfl, rfl⟩
    · exact hr.idle x hx
  | dropped x hm hx e =>
    have hr := h.resting hm
    exact rest (s.dropEntry x) e ⟨hr.waves, hr.neutral, hr.desk, fun y hy => hr.idle y (List.mem_filter.1 hy).1⟩
      (rowTableOk_dropEntry h.table hx) hplans hcounter
  | sources l hm e =>
    have hr := h.resting hm
    exact rest { s with sources := l } e ⟨hr.waves, hr.neutral, hr.desk, hr.idle⟩ h.table hplans hcounter
  | planned k p hm hp e =>
    have hr := h.resting hm
    exact rest (s.putPlan k p) e ⟨hr.waves, hr.neutral, hr.desk, hr.idle⟩ h.table (plansOk_putPlan hplans k hp) hcounter

/-- A configuring request keeps the slots within the budget: outside PASS it changes neither B nor Bh, and in PASS no slot is held (R120). -/
theorem ArbiterOk.budget_configured {s t : State} (h : ArbiterOk s) (c : Configured s t) : WithinBudget t := by
  obtain ⟨hb, hs⟩ := arbiterOk_iff.1 h
  have hslots := slotCounts_configured c
  by_cases hm : s.mode = .pass
  · have hd := (hs.resting hm).desk
    simp only [State.desk, Desk.mk.injEq] at hd
    refine withinBudget_of_no_slots ?_
    rw [hslots, State.slotCounts, hd.2.2.2.1, hd.2.2.2.2]
  · obtain ⟨p, hbud, hhead, -, -, hl⟩ := configured_outside_pass hm c
    have hp : t.params = p := params_of_layout (s := { s with params := p }) hl
    simp only [State.slotCounts, Prod.mk.injEq] at hslots
    simpa only [WithinBudget, hp, hbud, hhead, hslots] using hb

theorem ArbiterOk.configured {s t : State} (h : ArbiterOk s) (c : Configured s t) : ArbiterOk t :=
  arbiterOk_iff.2 ⟨h.budget_configured c, (arbiterOk_iff.1 h).2.configured c⟩

theorem ArbiterOk.of_ledger {s t : State} (e : t.ledger = s.ledger) (h : ArbiterOk s) : ArbiterOk t := h.configured (.refused e)

/-! ### Every step -/

theorem arbiterOk_powered (a : Byte) : ArbiterOk { State.reset with nodeAddr := a } := by
  obtain ⟨hb, hs⟩ := arbiterOk_iff.1 arbiterOk_reset
  have hr := hs.resting rfl
  exact arbiterOk_iff.2 ⟨hb, Resting.sound ⟨hr.waves, hr.neutral, hr.desk, hr.idle⟩ (rowTableOk_of_empty rfl members_reset) hs.waves.1 hs.waves.2.1⟩

/-- Every command but POWER_ON keeps the slots within the budget and the books, each by its parts, or configures. -/
theorem ArbiterOk.exec {s t : State} {c : Instr} (h : ArbiterOk s) (hc : ∀ a b d e f, c ≠ .powerOn a b d e f) (hx : exec c s = .next t) :
    ArbiterOk t := by
  have hconf : ∀ (s1 : State) (e : Env) (q : Request), s1.ledger = s.ledger → q.configures = true → t = s1.execute e q → ArbiterOk t := by
    rintro s1 e q hl hq rfl
    exact (h.of_ledger hl).configured (s1.execute_configures e hq)
  rcases withinBudget_evolves.exec hc hx with hb | ⟨s1, e, q, hl, hq, ht⟩
  · rcases sound_evolves.exec hc hx with hs | ⟨s1, e, q, hl, hq, ht⟩
    · exact arbiterOk_iff.2 ((arbiterOk_iff.1 h).imp hb.2 hs)
    · exact hconf s1 e q hl hq ht
  · exact hconf s1 e q hl hq ht

theorem arbiterOk_kept : KeptByStep ArbiterOk := by
  intro s t hs hst
  rcases step_next hst with ⟨-, rfl⟩ | ⟨c, rest, -, hx⟩
  · exact hs
  · by_cases hc : ∃ a b d e f, c = .powerOn a b d e f
    · obtain ⟨a, b, d, e, f, rfl⟩ := hc
      exact (arbiterOk_powered a).of_ledger (exec_powerOn hx)
    · exact (hs.of_ledger (t := { s with pending := rest }) rfl).exec (fun a b d e f hp => hc ⟨a, b, d, e, f, hp⟩) hx

/-- Settles O10: the slots within the budget and the arbiter's books are each kept by every part of every command. -/
theorem budgetKept : Obligations.BudgetKept :=
  ⟨fun _ _ h hst hb hh => withinBudget_step h hst hb hh, arbiterOk_kept⟩

end Sys2Proof.Machine

/-!
What an operation makes of each step, found by its wave's number and its row: a step that it leaves out has left the queue with its wave,
and had ended.
-/

namespace Sys2Proof.Machine

/-- A step becomes another, or leaves the queue ended. -/
inductive StepGoes (Q : WaveStep → WaveStep → Prop) : Option WaveStep → Option WaveStep → Prop
  | absent : StepGoes Q none none
  | left {a b : WaveStep} (h : Q a b) (e : b.state.terminal = true) : StepGoes Q (some a) none
  | kept {a b : WaveStep} (h : Q a b) : StepGoes Q (some a) (some b)

theorem StepGoes.of_eq {Q : WaveStep → WaveStep → Prop} (hr : ∀ a, Q a a) {x y : Option WaveStep} (e : y = x) : StepGoes Q x y := by
  subst e
  cases y with
  | none => exact .absent
  | some a => exact .kept (hr a)

theorem StepGoes.mono {Q R : WaveStep → WaveStep → Prop} (hc : ∀ {a b}, Q a b → R a b) {x y : Option WaveStep} (h : StepGoes Q x y) :
    StepGoes R x y := by
  cases h with
  | absent => exact .absent
  | left h e => exact .left (hc h) e
  | kept h => exact .kept (hc h)

/-- Every step goes as a relation for its wave and row says. -/
def Goes (Q : Nat → Nat → WaveStep → WaveStep → Prop) (s t : State) : Prop := ∀ n r, StepGoes (Q n r) (s.step? n r) (t.step? n r)

theorem step?_congr {s t : State} (h : t.waves = s.waves) (n r : Nat) : t.step? n r = s.step? n r := by
  simp only [State.step?, State.wave?, h]

theorem Goes.of_waves {Q : Nat → Nat → WaveStep → WaveStep → Prop} (hr : ∀ n r a, Q n r a a) {s t : State} (h : t.waves = s.waves) :
    Goes Q s t := fun n r => .of_eq (hr n r) (step?_congr h n r)

/-- Relations compose; the second one leaves alone the steps that have ended and left by then. -/
theorem Goes.comp {P Q R : Nat → Nat → WaveStep → WaveStep → Prop} {s t u : State} (h : Goes P s t) (k : Goes Q t u)
    (hr : ∀ n r a, a.state.terminal = true → s.step? n r ≠ none → t.step? n r = none → Q n r a a)
    (hc : ∀ {n r a b c}, P n r a b → Q n r b c → R n r a c) : Goes R s u := fun n r => by
  have hn := h n r
  have kn := k n r
  have hrn := hr n r
  generalize s.step? n r = x at *
  generalize t.step? n r = y at *
  generalize u.step? n r = z at *
  cases hn with
  | absent => cases kn; exact .absent
  | left h e => cases kn; exact .left (hc h (hrn _ e (by simp) rfl)) e
  | kept h =>
    cases kn with
    | left k e => exact .left (hc h k) e
    | kept k => exact .kept (hc h k)

theorem Goes.trans {P Q R : Nat → Nat → WaveStep → WaveStep → Prop} {s t u : State} (h : Goes P s t) (k : Goes Q t u)
    (hr : ∀ n r a, s.step? n r ≠ none → t.step? n r = none → Q n r a a) (hc : ∀ {n r a b c}, P n r a b → Q n r b c → R n r a c) : Goes R s u :=
  h.comp k (fun n r a _ => hr n r a) hc

theorem Goes.mono {Q R : Nat → Nat → WaveStep → WaveStep → Prop} (hc : ∀ {n r a b}, Q n r a b → R n r a b) {s t : State} (h : Goes Q s t) :
    Goes R s t := fun n r => (h n r).mono hc

/-- A change of one step. -/
theorem goes_updStep (s : State) (n r : Nat) {g : WaveStep → WaveStep} (hg : ∀ x, (g x).row = x.row) :
    Goes (fun m q a b => b = if m = n ∧ q = r then g a else a) s (s.updStep n r g) := fun m q => by
  rw [State.step?_updStep s n r m q hg]
  by_cases e : m = n ∧ q = r
  · simp only [if_pos e]
    cases s.step? m q with
    | none => exact .absent
    | some a => exact .kept rfl
  · simp only [if_neg e]
    exact StepGoes.of_eq (Q := fun a b => b = a) (fun _ => rfl) rfl

/-! ### Completion -/

/-- Completion removes the finished waves and keeps the others (R71). -/
theorem completeWaves_waves {s : State} (h : WavesOk s) : s.completeWaves.waves = s.waves.filter fun w => !w.finished := by
  have key : ∀ (l : List Wave) (u : State), (l.foldl State.completeWave u).waves = u.waves.filter fun x => l.all fun w => x.num != w.num := by
    intro l
    induction l with
    | nil => intro u; simp
    | cons w l ih =>
      intro u
      rw [List.foldl_cons, ih]
      change List.filter _ (u.waves.filter fun x => x.num != w.num) = _
      rw [List.filter_filter]
      simp [Bool.and_comm]
  rw [State.completeWaves, key]
  refine List.filter_congr fun x hx => ?_
  cases hf : x.finished with
  | true =>
    have : ¬((s.waves.filter Wave.finished).all fun w => x.num != w.num) = true := fun hall => by
      have := List.all_eq_true.1 hall x (List.mem_filter.2 ⟨hx, hf⟩)
      simp at this
    simpa using this
  | false =>
    rw [List.all_eq_true.2 fun w hw => ?_]
    · rfl
    · obtain ⟨hws, hwf⟩ := List.mem_filter.1 hw
      have hne : x.num ≠ w.num := fun e => by
        rw [List.inj_on_of_nodup_map h.nums_nodup hx hws e, hwf] at hf
        cases hf
      simpa using hne

/-- With distinct keys, a filtered list finds what the list finds, if it passes. -/
theorem find?_filter_key {α : Type} {key : α → Nat} {l : List α} (hn : (l.map key).Nodup) (p : α → Bool) (n : Nat) :
    (l.filter p).find? (fun x => key x == n) = (l.find? fun x => key x == n).filter p := by
  induction l with
  | nil => rfl
  | cons a l ih =>
    rw [List.map_cons, List.nodup_cons] at hn
    by_cases e : key a = n
    · have hb : (key a == n) = true := by simp [e]
      rw [List.find?_cons_of_pos (p := fun x => key x == n) hb]
      cases hp : p a with
      | true => rw [List.filter_cons_of_pos hp, List.find?_cons_of_pos (p := fun x => key x == n) hb, Option.filter_some_pos hp]
      | false =>
        rw [List.filter_cons_of_neg (by simp [hp]), Option.filter_some_neg (by simp [hp])]
        refine List.find?_eq_none.2 fun x hx hc => hn.1 ?_
        rw [e, ← beq_iff_eq.1 hc]
        exact List.mem_map_of_mem (List.mem_filter.1 hx).1
    · have hb : ¬(key a == n) = true := by simp [e]
      rw [List.find?_cons_of_neg (p := fun x => key x == n) hb, ← ih hn.2]
      cases hp : p a with
      | true => rw [List.filter_cons_of_pos hp, List.find?_cons_of_neg (p := fun x => key x == n) hb]
      | false => rw [List.filter_cons_of_neg (by simp [hp])]

theorem wave?_completeWaves {s : State} (h : WavesOk s) (n : Nat) : s.completeWaves.wave? n = (s.wave? n).filter fun w => !w.finished := by
  rw [State.wave?, completeWaves_waves h]
  exact find?_filter_key h.nums_nodup _ n

/-- Completion takes steps that had ended (R71). -/
theorem goes_completeWaves {Q : Nat → Nat → WaveStep → WaveStep → Prop} (hr : ∀ n r a, Q n r a a) {s : State} (h : WavesOk s) :
    Goes Q s s.completeWaves := fun n r => by
  rw [State.step?, State.step?, wave?_completeWaves h]
  cases hw : s.wave? n with
  | none => exact .absent
  | some w =>
    cases hf : w.finished with
    | false =>
      rw [Option.filter_some_pos (by simp [hf])]
      exact .of_eq (hr n r) rfl
    | true =>
      rw [Option.filter_some_neg (by simp [hf])]
      cases hst : w.step? r with
      | none => simp only [Option.bind_some, hst]; exact .absent
      | some st =>
        simp only [Option.bind_some, hst]
        refine .left (hr n r st) ?_
        simp only [Wave.finished, Bool.and_eq_true, List.all_eq_true] at hf
        exact hf.2 st (Wave.step?_mem hst).1

/-! ### Triggers -/

/-- A step that enters HOLDING (R76). -/
def WaveStep.start (st : WaveStep) : WaveStep :=
  { st with state := .holding, hold := 0, cmpA := .pending, cmpP := none, owesTest := false, owesDeadline := false }

/-- A step stands, or is WAITING and enters HOLDING. -/
def Early (a b : WaveStep) : Prop := b = a ∨ (a.state = .waiting ∧ b = a.start)

theorem Early.refl (a : WaveStep) : Early a a := .inl rfl

theorem Early.trans {a b c : WaveStep} (h : Early a b) (k : Early b c) : Early a c := by
  rcases h with rfl | ⟨h, rfl⟩
  · exact k
  · rcases k with rfl | ⟨k, -⟩
    · exact .inr ⟨h, rfl⟩
    · cases k

/-- The hold-time request that a trigger places (R77, R110). -/
def State.startRequest (s : State) (w : Wave) (nxt : WaveStep) : DivEntry :=
  ⟨.hold w.num nxt.row, 102400 * nxt.spacing, ((s.planOf w).map fun p => p.k).getD 0 * max s.uf s.params.uCalm⟩

/-- A trigger starts a WAITING successor, or does nothing (R81). -/
theorem State.trigger_cases {s : State} (h : WavesOk s) (n r : Nat) :
    (s.trigger n r = s ∧ ∀ w nxt, s.wave? n = some w → w.successor r = some nxt → nxt.state ≠ .waiting) ∨
    ∃ w nxt, s.wave? n = some w ∧ w.successor r = some nxt ∧ nxt.state = .waiting ∧
      s.trigger n r = (s.updStep n nxt.row WaveStep.start).place (s.startRequest w nxt) := by
  unfold State.trigger
  cases hw : s.wave? n with
  | none => exact .inl ⟨rfl, by simp⟩
  | some w =>
    obtain ⟨hm, rfl⟩ := State.wave?_mem hw
    simp only [Option.bind_some]
    cases hs : w.successor r with
    | none => exact .inl ⟨rfl, fun w' nxt e e' => by cases e; rw [hs] at e'; cases e'⟩
    | some nxt =>
      dsimp only
      split
      · rename_i hwait
        refine .inr ⟨w, nxt, rfl, hs, hwait, ?_⟩
        have hst : w.step? nxt.row = some nxt := find?_key_of_mem (h.rows_nodup hm) (Wave.successor_mem hs)
        simp only [State.enterHolding, hw, hst]
        rfl
      · rename_i hwait
        refine .inl ⟨rfl, fun w' nxt' e e' => ?_⟩
        cases e
        cases hs.symm.trans e'
        exact hwait

/-- A trigger of the step can start a successor at a row of a kind only. -/
def StartsAt (S : Nat → Prop) (s : State) (n r : Nat) : Prop :=
  ∀ w nxt, s.wave? n = some w → w.successor r = some nxt → nxt.state = .waiting → S nxt.row

/-- Every row. -/
def AnyRow : Nat → Prop := fun _ => True

theorem startsAt_any (s : State) (n r : Nat) : StartsAt AnyRow s n r := fun _ _ _ _ _ => trivial

/-- What a trigger makes of the steps of a wave: one at a row of a kind may start. -/
def Triggers (S : Nat → Prop) (n m q : Nat) (a b : WaveStep) : Prop := b = a ∨ (m = n ∧ S q ∧ a.state = .waiting ∧ b = a.start)

theorem goes_trigger {S : Nat → Prop} {s : State} (h : WavesOk s) {n r : Nat} (hS : StartsAt S s n r) :
    Goes (Triggers S n) s (s.trigger n r) := by
  rcases s.trigger_cases h n r with ⟨e, -⟩ | ⟨w, nxt, hw, hs, hwait, e⟩
  · rw [e]
    exact fun m q => .of_eq (fun _ => .inl rfl) rfl
  · obtain ⟨hm, rfl⟩ := State.wave?_mem hw
    have hst := h.step?_of_mem hm (Wave.successor_mem hs)
    rw [e]
    intro m q
    change StepGoes _ (s.step? m q) ((s.updStep w.num nxt.row WaveStep.start).step? m q)
    rw [State.step?_updStep s w.num nxt.row m q (g := WaveStep.start) fun _ => rfl]
    by_cases c : m = w.num ∧ q = nxt.row
    · obtain ⟨rfl, rfl⟩ := c
      rw [hst, if_pos ⟨rfl, rfl⟩]
      exact .kept (.inr ⟨rfl, hS _ _ hw hs hwait, hwait, rfl⟩)
    · rw [if_neg c]
      exact .of_eq (fun _ => .inl rfl) rfl

/-! ### The end of a step -/

/-- One step changes as a function says, and the steps of its wave go as at a trigger. -/
def Ends (S : Nat → Prop) (n r : Nat) (f : WaveStep → WaveStep) (m q : Nat) (a b : WaveStep) : Prop :=
  if m = n ∧ q = r then b = f a else Triggers S n m q a b

theorem ends_self {S : Nat → Prop} {n r : Nat} {f : WaveStep → WaveStep} {a b : WaveStep} : Ends S n r f n r a b ↔ b = f a := by simp [Ends]

theorem ends_ne {S : Nat → Prop} {n r m q : Nat} (h : ¬(m = n ∧ q = r)) {f : WaveStep → WaveStep} {a b : WaveStep} :
    Ends S n r f m q a b ↔ Triggers S n m q a b := by rw [Ends, if_neg h]

/-- A step that ends triggers its successor (R81). -/
theorem goes_end {S : Nat → Prop} {s : State} (h : WavesOk s) {n r : Nat} {g : WaveStep → WaveStep} (hg : ∀ x, (g x).row = x.row)
    (hw : ∀ x, (g x).state ≠ .waiting) (hS : StartsAt S (s.updStep n r g) n r) : Goes (Ends S n r g) s ((s.updStep n r g).trigger n r) := by
  have h1 : WavesOk (s.updStep n r g) := wavesOk_of_shaped h rfl rfl (Shaped.updStep s n r hg)
  refine (goes_updStep s n r hg).trans (goes_trigger h1 hS) (fun _ _ _ _ _ => .inl rfl) fun {m q a b c} e k => ?_
  by_cases hc : m = n ∧ q = r
  · obtain ⟨rfl, rfl⟩ := hc
    rw [if_pos ⟨rfl, rfl⟩] at e
    subst e
    rcases k with rfl | ⟨-, -, hwait, -⟩
    · exact ends_self.2 rfl
    · exact absurd hwait (hw a)
  · rw [if_neg hc] at e
    subst e
    exact (ends_ne hc).2 k

/-- A step without a pending hold time (R79). -/
def WaveStep.drop (st : WaveStep) : WaveStep := { st with cmpA := if st.cmpA = .pending then .absent else st.cmpA }

theorem State.dropHold_of_pending {s : State} {n r : Nat} {st : WaveStep} (h : s.step? n r = some st) (hp : st.cmpA = .pending) :
    s.dropHold n r = (s.withdraw (.hold n r)).updStep n r fun x => { x with cmpA := .absent } := by
  simp only [State.dropHold, h, if_pos hp]

theorem State.dropHold_of_not_pending {s : State} {n r : Nat} {st : WaveStep} (h : s.step? n r = some st) (hp : st.cmpA ≠ .pending) :
    s.dropHold n r = s := by
  simp only [State.dropHold, h, if_neg hp]

theorem step?_dropHold (s : State) (n r m q : Nat) :
    (s.dropHold n r).step? m q = if m = n ∧ q = r then (s.step? m q).map WaveStep.drop else s.step? m q := by
  cases hst : s.step? n r with
  | none =>
    simp only [State.dropHold, hst]
    split
    · rename_i c; obtain ⟨rfl, rfl⟩ := c; rw [hst]; rfl
    · rfl
  | some st =>
    by_cases hp : st.cmpA = .pending
    · rw [State.dropHold_of_pending hst hp, State.step?_updStep _ n r m q (g := fun x => { x with cmpA := .absent }) fun _ => rfl]
      change (if m = n ∧ q = r then (s.step? m q).map _ else s.step? m q) = _
      split
      · rename_i c
        obtain ⟨rfl, rfl⟩ := c
        rw [hst]
        simp [WaveStep.drop, hp]
      · rfl
    · rw [State.dropHold_of_not_pending hst hp]
      split
      · rename_i c
        obtain ⟨rfl, rfl⟩ := c
        rw [hst]
        simp [WaveStep.drop, hp]
      · rfl

/-- A step that is skipped (R87). -/
def WaveStep.skip (st : WaveStep) : WaveStep := { st.drop with state := .skipped, owesTest := false, owesDeadline := false }

theorem goes_dropHold (s : State) (n r : Nat) : Goes (fun m q a b => b = if m = n ∧ q = r then a.drop else a) s (s.dropHold n r) := fun m q => by
  rw [step?_dropHold]
  by_cases c : m = n ∧ q = r
  · simp only [if_pos c]
    cases s.step? m q with
    | none => exact .absent
    | some a => exact .kept rfl
  · simp only [if_neg c]
    exact StepGoes.of_eq (Q := fun a b => b = a) (fun _ => rfl) rfl

theorem Goes.congr {Q : Nat → Nat → WaveStep → WaveStep → Prop} {s t u : State} (h : Goes Q s t) (e : u.waves = t.waves) : Goes Q s u :=
  fun n r => step?_congr e n r ▸ h n r

theorem Ends.refl_of_ne {S : Nat → Prop} {n r m q : Nat} (h : ¬(m = n ∧ q = r)) {f : WaveStep → WaveStep} (a : WaveStep) :
    Ends S n r f m q a a :=
  (ends_ne h).2 (.inl rfl)

/-- The state of a step that is skipped, before it triggers its successor. -/
def State.skipped (s : State) (n r : Nat) : State :=
  (s.dropHold n r).updStep n r fun x => { x with state := .skipped, owesTest := false, owesDeadline := false }

/-- The state of a step that is skipped, before completion is judged. -/
def State.skipping (s : State) (n r : Nat) : State :=
  (s.skipped n r).trigger n r

theorem State.skipStep_eq (s : State) (n r : Nat) (x : SkipReason) : s.skipStep n r x =
    (((s.skipping n r).tally fun c => { c with skips := c.skips + 1 }).notify (.stepSkipped n r x)).completeWaves := rfl

theorem wavesOk_skipped {s : State} (h : WavesOk s) (n r : Nat) : WavesOk (s.skipped n r) :=
  wavesOk_of_shaped ((Settling.dropHold s n r).wavesOk h) rfl rfl (Shaped.updStep _ n r fun _ => rfl)

theorem wavesOk_skipping {s : State} (h : WavesOk s) (n r : Nat) : WavesOk (s.skipping n r) :=
  (Settling.trigger (wavesOk_skipped h n r) n r).wavesOk (wavesOk_skipped h n r)

theorem goes_skipping {S : Nat → Prop} {s : State} (h : WavesOk s) {n r : Nat} (hS : StartsAt S (s.skipped n r) n r) :
    Goes (Ends S n r WaveStep.skip) s (s.skipping n r) := by
  have h1 := (Settling.dropHold s n r).wavesOk h
  have hend := goes_end h1 (g := fun x => { x with state := .skipped, owesTest := false, owesDeadline := false }) (fun _ => rfl)
    (fun _ => by simp) hS
  refine (goes_dropHold s n r).trans hend (fun m q a hs hn => ?_) fun {m q a b c} e k => ?_
  · rw [step?_dropHold] at hn
    split at hn
    · exact absurd (Option.map_eq_none_iff.1 hn) hs
    · exact absurd hn hs
  · by_cases hc : m = n ∧ q = r
    · obtain ⟨rfl, rfl⟩ := hc
      rw [if_pos ⟨rfl, rfl⟩] at e
      subst e
      rw [Ends, if_pos ⟨rfl, rfl⟩] at k ⊢
      exact k
    · rw [if_neg hc] at e
      subst e
      exact (ends_ne hc).2 ((ends_ne hc).1 k)

/-- A skipped step loses its pending hold time and triggers its successor (R79, R87). -/
theorem goes_skipStep {S : Nat → Prop} {s : State} (h : WavesOk s) {n r : Nat} (hS : StartsAt S (s.skipped n r) n r) (x : SkipReason) :
    Goes (Ends S n r WaveStep.skip) s (s.skipStep n r x) := by
  rw [State.skipStep_eq]
  have hg := goes_skipping h hS
  have hw := wavesOk_skipping h n r
  generalize s.skipping n r = u at hg hw ⊢
  have h1 : WavesOk ((u.tally fun c => { c with skips := c.skips + 1 }).notify (.stepSkipped n r x)) := hw
  have h2 := hg.congr (u := (u.tally fun c => { c with skips := c.skips + 1 }).notify (.stepSkipped n r x)) rfl
  exact h2.trans (goes_completeWaves (Q := fun _ _ a b => b = a) (fun _ _ _ => rfl) h1) (fun _ _ _ _ _ => rfl) fun e k => k ▸ e

end Sys2Proof.Machine

/-! What releases, deadline actions and grants make of each step, and the requests that they place at the divider. -/

namespace Sys2Proof.Machine

/-! ### Relations of steps -/

/-- The step is HOLDING with its hold time pending, and nothing can release it or act on it before it arrives (R77). -/
structure WaveStep.Awaits (st : WaveStep) : Prop where
  state : st.state = .holding
  cmpA : st.cmpA = .pending
  cmpP : st.cmpP = none
  forced : st.forced = false

/-- The deadline action of the step does not act now (R86). -/
def WaveStep.NotDue (st : WaveStep) : Prop :=
  st.state = .holding → st.forced = false → st.owesTest = false → st.owesDeadline = false → ∀ p, st.cmpP = some p → st.hold < p

/-- What the release tests and the arbiter make of a step. -/
structure Late (a b : WaveStep) : Prop where
  terminal : a.state.terminal = true → b = a
  awaits : a.Awaits → b = a
  waiting : b.state = .waiting → b = a
  notDue : a.NotDue → b.NotDue

theorem Late.refl (a : WaveStep) : Late a a := ⟨fun _ => rfl, fun _ => rfl, fun _ => rfl, id⟩

theorem Late.trans {a b c : WaveStep} (h : Late a b) (k : Late b c) : Late a c where
  terminal e := by
    have := h.terminal e
    subst this
    exact k.terminal e
  awaits e := by
    have := h.awaits e
    subst this
    exact k.awaits e
  waiting e := by
    have := k.waiting e
    subst this
    exact h.waiting e
  notDue e := k.notDue (h.notDue e)

/-- A step that is HOLDING or moves turbines, and does not await its hold time, becomes one that does not hold. -/
theorem Late.of_not_holding {a b : WaveStep} (ht : a.state.terminal = false) (ha : ¬a.Awaits) (hw : b.state ≠ .waiting) (hh : b.state ≠ .holding) :
    Late a b :=
  ⟨fun e => (by rw [ht] at e; cases e), fun e => absurd e ha, fun e => absurd e hw, fun _ e => absurd e hh⟩

theorem late_start {a : WaveStep} (h : a.state = .waiting) : Late a a.start :=
  ⟨fun e => (by simp [h, StepState.terminal] at e), fun e => absurd (e.state.symm.trans h) (by simp), fun e => by simp [WaveStep.start] at e,
    fun _ _ _ _ _ p e => by simp [WaveStep.start] at e⟩

theorem Late.of_triggers {S : Nat → Prop} {n m q : Nat} {a b : WaveStep} (h : Triggers S n m q a b) : Late a b := by
  rcases h with rfl | ⟨-, -, hw, rfl⟩
  · exact .refl _
  · exact late_start hw

/-! ### The end of a released step -/

/-- A step that enters DONE (R96). -/
def WaveStep.finish (st : WaveStep) : WaveStep := { st with state := .done, set := some st.hold, owesTest := false, owesDeadline := false }

theorem goes_enterDone {S : Nat → Prop} {s : State} (h : WavesOk s) {n r : Nat} (hS : StartsAt S (s.updStep n r WaveStep.finish) n r) :
    Goes (Ends S n r WaveStep.finish) s (s.enterDone n r) := by
  unfold State.enterDone
  split
  · rename_i hn
    intro m q
    by_cases c : m = n ∧ q = r
    · obtain ⟨rfl, rfl⟩ := c
      rw [hn]
      exact .absent
    · exact .of_eq (fun a => Ends.refl_of_ne c a) rfl
  · dsimp only
    split
    · refine (goes_updStep s n r (g := WaveStep.finish) fun _ => rfl).mono fun {m q a b} e => ?_
      by_cases c : m = n ∧ q = r
      · rw [if_pos c] at e
        rw [Ends, if_pos c]
        exact e
      · rw [if_neg c] at e
        exact (ends_ne c).2 (.inl e)
    · exact goes_end h (g := WaveStep.finish) (fun _ => rfl) (fun _ => by simp [WaveStep.finish]) hS

/-- One step keeps its state, and the others stand. -/
def Marks (n r m q : Nat) (a b : WaveStep) : Prop := if m = n ∧ q = r then b.state = a.state else b = a

theorem Marks.refl (n r m q : Nat) (a : WaveStep) : Marks n r m q a a := by unfold Marks; split <;> rfl

theorem Marks.trans {n r m q : Nat} {a b c : WaveStep} (h : Marks n r m q a b) (k : Marks n r m q b c) : Marks n r m q a c := by
  unfold Marks at *
  split
  · rename_i e
    rw [if_pos e] at h k
    exact k.trans h
  · rename_i e
    rw [if_neg e] at h k
    exact k.trans h

theorem marks_updStep (s : State) (n r : Nat) {g : WaveStep → WaveStep} (hg : ∀ x, (g x).row = x.row) (hs : ∀ x, (g x).state = x.state) :
    Goes (Marks n r) s (s.updStep n r g) :=
  (goes_updStep s n r hg).mono fun {m q a b} e => by
    unfold Marks
    split
    · rename_i c; rw [if_pos c] at e; rw [e, hs]
    · rename_i c; rw [if_neg c] at e; exact e

theorem marks_trans {s t u : State} {n r : Nat} (h : Goes (Marks n r) s t) (k : Goes (Marks n r) t u) : Goes (Marks n r) s u :=
  h.trans k (fun _ _ _ _ _ => Marks.refl _ _ _ _ _) Marks.trans

theorem marks_releaseMember (ts : List (Nat × Int)) (n r : Nat) (s : State) (node : Nat) :
    Goes (Marks n r) s (State.releaseMember ts n r s node) := by
  have hrefl : Goes (Marks n r) s s := fun _ _ => .of_eq (Marks.refl _ _ _ _) rfl
  unfold State.releaseMember
  split
  · exact hrefl
  · split
    · exact hrefl
    · split
      · exact marks_updStep s n r (g := fun x => { x with needed := x.needed + 1, faulted := x.faulted + 1 }) (fun _ => rfl) fun _ => rfl
      · split
        · exact (marks_updStep s n r (g := fun x => { x with needed := x.needed + 1 }) (fun _ => rfl) fun _ => rfl).congr rfl
        · exact marks_updStep s n r (g := fun x => { x with needed := x.needed + 1, settled := x.settled + 1 }) (fun _ => rfl) fun _ => rfl

theorem marks_members (ts : List (Nat × Int)) (n r : Nat) (l : List Nat) (s : State) :
    Goes (Marks n r) s (l.foldl (State.releaseMember ts n r) s) := by
  induction l generalizing s with
  | nil => exact fun _ _ => .of_eq (Marks.refl _ _ _ _) rfl
  | cons a l ih => exact marks_trans (marks_releaseMember ts n r s a) (ih _)

/-- The state of a released step whose members are handled, before its own state is decided (R88, R89). -/
def State.releasing (s : State) (w : Wave) (st : WaveStep) (n r : Nat) : State :=
  (s.members r).foldl (State.releaseMember w.targets n r)
    ((s.updWave n fun x => x.releaseLatches st s.df s.uf).updStep n r fun x =>
      { x with forced := false, owesTest := false, owesDeadline := false })

theorem State.releaseStep_eq {s : State} {n r : Nat} {w : Wave} {st : WaveStep} (hw : s.wave? n = some w) (hst : w.step? r = some st) :
    s.releaseStep n r = (s.releasing w st n r).decideRelease n r := by
  unfold State.releaseStep
  rw [hw]
  dsimp only
  rw [hst]
  rfl

theorem marks_releasing (s : State) (w : Wave) (st : WaveStep) (n r : Nat) : Goes (Marks n r) s (s.releasing w st n r) := by
  have h1 : Goes (Marks n r) s (s.updWave n fun x => x.releaseLatches st s.df s.uf) := fun m q => by
    refine .of_eq (Marks.refl _ _ _ _) ?_
    simp only [State.step?, State.wave?_updWave s n m _ fun w => (w.releaseLatches_same st s.df s.uf).1]
    cases s.wave? m with
    | none => rfl
    | some x =>
      simp only [Option.map_some, Option.bind_some]
      split
      · simp only [Wave.step?, (x.releaseLatches_same st s.df s.uf).2.2]
      · rfl
  have h2 := marks_updStep (s.updWave n fun x => x.releaseLatches st s.df s.uf) n r
    (g := fun x => { x with forced := false, owesTest := false, owesDeadline := false }) (fun _ => rfl) fun _ => rfl
  exact marks_trans (marks_trans h1 h2) (marks_members _ _ _ _ _)

theorem shaped_releaseMember (ts : List (Nat × Int)) (n r : Nat) (s : State) (node : Nat) : Shaped s (State.releaseMember ts n r s node) := by
  rcases State.releaseMember_cases ts n r s node with e | ⟨g, hg, -, e⟩ | ⟨g, -, e⟩
  · rw [e]; exact Shaped.refl s
  · rw [e]; exact Shaped.updStep s n r hg
  · rw [e]
    exact Shaped.updStep s n r (g := fun x => { x with needed := x.needed + 1 }) fun _ => rfl

/-- A fold of changes of the waves, in a state's plans and wave counter. -/
theorem wavesOk_members (ts : List (Nat × Int)) (n r : Nat) (l : List Nat) {s : State} (h : WavesOk s) :
    WavesOk (l.foldl (State.releaseMember ts n r) s) := by
  induction l generalizing s with
  | nil => exact h
  | cons a l ih =>
    have hst := steady_propagates.releaseMember ts n r s a
    exact ih (wavesOk_of_shaped h hst.plans hst.waveCounter (shaped_releaseMember ts n r s a))

theorem wavesOk_releasing {s : State} (h : WavesOk s) (w : Wave) (st : WaveStep) (n r : Nat) : WavesOk (s.releasing w st n r) := by
  refine wavesOk_members _ _ _ _ (wavesOk_of_shaped h rfl rfl ?_)
  refine (Shaped.updWave s n fun w => ?_).trans (Shaped.updStep _ n r fun _ => rfl)
  obtain ⟨h1, h2, h3⟩ := w.releaseLatches_same st s.df s.uf
  simp only [Wave.shape, h1, h2, h3]

theorem shaped_members (ts : List (Nat × Int)) (n r : Nat) (l : List Nat) (s : State) : Shaped s (l.foldl (State.releaseMember ts n r) s) := by
  induction l generalizing s with
  | nil => exact Shaped.refl s
  | cons a l ih => exact (shaped_releaseMember ts n r s a).trans (ih _)

theorem shaped_releasing (s : State) (w : Wave) (st : WaveStep) (n r : Nat) : Shaped s (s.releasing w st n r) := by
  refine Shaped.trans ?_ (shaped_members _ _ _ _ _)
  refine (Shaped.updWave s n fun w => ?_).trans (Shaped.updStep _ n r fun _ => rfl)
  obtain ⟨h1, h2, h3⟩ := w.releaseLatches_same st s.df s.uf
  simp only [Wave.shape, h1, h2, h3]

theorem shaped_releaseStep {s : State} (h : WavesOk s) {n r : Nat} {w : Wave} {st : WaveStep} (hw : s.wave? n = some w)
    (hst : w.step? r = some st) : Shaped s (s.releaseStep n r) := by
  rw [State.releaseStep_eq hw hst]
  have hok := wavesOk_releasing h w st n r
  refine (shaped_releasing s w st n r).trans ?_
  unfold State.decideRelease
  split
  · exact (account_enterDone hok n r).1
  · exact Shaped.updStep _ n r fun _ => rfl

/-- What a release makes of the steps: the released one is DONE or RELEASING, and its successor may start (R90, R96). -/
def Releases (n r m q : Nat) (a b : WaveStep) : Prop :=
  if m = n ∧ q = r then b.state = .done ∨ b.state = .releasing else Triggers AnyRow n m q a b

theorem goes_releaseStep {s : State} (h : WavesOk s) {n r : Nat} {w : Wave} {st : WaveStep} (hw : s.wave? n = some w)
    (hst : w.step? r = some st) (hh : st.state.terminal = false) : Goes (Releases n r) s (s.releaseStep n r) := by
  rw [State.releaseStep_eq hw hst]
  have hm := marks_releasing s w st n r
  have hok := wavesOk_releasing h w st n r
  have hmid : (s.releasing w st n r).step? n r ≠ none := fun hn => by
    have := hm n r
    rw [hn, State.step?, hw, Option.bind_some, hst] at this
    cases this with
    | left e ht =>
      rw [Marks, if_pos ⟨rfl, rfl⟩] at e
      rw [e, hh] at ht
      cases ht
  generalize s.releasing w st n r = u at hm hok hmid
  unfold State.decideRelease
  split
  · refine hm.trans (goes_enterDone hok (startsAt_any _ n r)) (fun m q a _ hn => ?_) fun {m q a b c} e k => ?_
    · exact Ends.refl_of_ne (fun hc => hmid (by rw [← hc.1, ← hc.2]; exact hn)) a
    · unfold Releases
      split
      · rename_i hc
        rw [Ends, if_pos hc] at k
        rw [k]
        exact .inl rfl
      · rename_i hc
        rw [Marks, if_neg hc] at e
        rw [← e]
        exact (ends_ne hc).1 k
  · refine hm.trans (goes_updStep u n r (g := fun x => { x with state := .releasing }) fun _ => rfl) (fun m q a _ hn => ?_) fun {m q a b c} e k => ?_
    · rw [if_neg fun hc => hmid (by rw [← hc.1, ← hc.2]; exact hn)]
    · unfold Releases
      split
      · rename_i hc
        rw [if_pos hc] at k
        rw [k]
        exact .inr rfl
      · rename_i hc
        rw [if_neg hc] at k
        rw [Marks, if_neg hc] at e
        exact .inl (k.trans e)

end Sys2Proof.Machine

/-! The release tests of an event: what they make of the steps, the divider and the skip counter, and the turbines of masked rows that they spare. -/

namespace Sys2Proof.Machine

/-! ### Requests placed -/

/-- The step named by a wave number and a row awaits its hold time. -/
def AwaitsAt (s : State) (n r : Nat) : Prop := ∃ st, s.step? n r = some st ∧ st.Awaits

/-- A request of the divider that a trigger or a frame has placed: a DEADLINE request, or a hold time that is awaited (R77, R111). -/
def Owed (s : State) (e : DivEntry) : Prop :=
  match e.requester with
  | .hold n r => AwaitsAt s n r
  | .deadline _ => True

/-- The divider has requests placed behind its entries. -/
def Adds (s t : State) : Prop :=
  ∃ placed : List DivEntry, t.divider = placed.foldl Divider.place s.divider ∧ ∀ e ∈ placed, Owed t e

theorem AwaitsAt.goes {s t : State} (h : Goes (fun _ _ => Late) s t) {n r : Nat} (ha : AwaitsAt s n r) : AwaitsAt t n r := by
  obtain ⟨st, hst, haw⟩ := ha
  have hg := h n r
  rw [hst] at hg
  generalize ht : t.step? n r = y at hg
  cases hg with
  | left l e =>
    rw [l.awaits haw, haw.state] at e
    cases e
  | kept l => exact ⟨_, ht, l.awaits haw ▸ haw⟩

theorem Owed.goes {s t : State} (h : Goes (fun _ _ => Late) s t) {e : DivEntry} (ho : Owed s e) : Owed t e := by
  unfold Owed at *
  split
  · rename_i n r hq; rw [hq] at ho; exact AwaitsAt.goes h ho
  · trivial

theorem Adds.of_divider {s t : State} (h : t.divider = s.divider) : Adds s t := ⟨[], h, by simp⟩

theorem Adds.trans {s t u : State} (h : Adds s t) (k : Adds t u) (hg : Goes (fun _ _ => Late) t u) : Adds s u := by
  obtain ⟨p, hp, op⟩ := h
  obtain ⟨q, hq, oq⟩ := k
  refine ⟨p ++ q, by rw [hq, hp, List.foldl_append], fun e he => ?_⟩
  rcases List.mem_append.1 he with he | he
  · exact (op e he).goes hg
  · exact oq e he

/-- No WAITING step has its forced mark set. -/
def Unforced (s : State) : Prop := ∀ n r st, s.step? n r = some st → st.state = .waiting → st.forced = false

/-- No step's deadline action acts. -/
def NoneDue (s : State) : Prop := ∀ n r st, s.step? n r = some st → st.NotDue

theorem Goes.kept_from {Q : Nat → Nat → WaveStep → WaveStep → Prop} {s t : State} (h : Goes Q s t) {n r : Nat} {b : WaveStep}
    (hb : t.step? n r = some b) : ∃ a, s.step? n r = some a ∧ Q n r a b := by
  have hg := h n r
  rw [hb] at hg
  generalize hs : s.step? n r = x at hg
  cases hg with
  | kept e => exact ⟨_, rfl, e⟩

theorem Unforced.goes {s t : State} (h : Goes (fun _ _ => Late) s t) (hu : Unforced s) : Unforced t := fun n r b hb hw => by
  obtain ⟨a, ha, l⟩ := h.kept_from hb
  have := l.waiting hw
  subst this
  exact hu n r _ ha hw

theorem NoneDue.goes {s t : State} (h : Goes (fun _ _ => Late) s t) (hu : NoneDue s) : NoneDue t := fun n r b hb => by
  obtain ⟨a, ha, l⟩ := h.kept_from hb
  exact l.notDue (hu n r a ha)

theorem late_trans {s t u : State} (h : Goes (fun _ _ => Late) s t) (k : Goes (fun _ _ => Late) t u) : Goes (fun _ _ => Late) s u :=
  h.trans k (fun _ _ _ _ _ => Late.refl _) Late.trans

theorem late_of_waves {s t : State} (h : t.waves = s.waves) : Goes (fun _ _ => Late) s t := .of_waves (fun _ _ => Late.refl) h

/-- A trigger places its successor's request, which is awaited (R77). -/
theorem adds_trigger {s : State} (h : WavesOk s) (hu : Unforced s) (n r : Nat) : Adds s (s.trigger n r) := by
  rcases s.trigger_cases h n r with ⟨e, -⟩ | ⟨w, nxt, hw, hs, hwait, e⟩
  · rw [e]; exact .of_divider rfl
  · obtain ⟨hm, rfl⟩ := State.wave?_mem hw
    have hst := h.step?_of_mem hm (Wave.successor_mem hs)
    rw [e]
    refine ⟨[s.startRequest w nxt], rfl, fun x hx => ?_⟩
    rw [List.mem_singleton.1 hx]
    refine ⟨nxt.start, ?_, ⟨rfl, rfl, rfl, (hu _ _ _ hst hwait :)⟩⟩
    change (s.updStep w.num nxt.row WaveStep.start).step? w.num nxt.row = _
    rw [State.step?_updStep s w.num nxt.row w.num nxt.row (g := WaveStep.start) fun _ => rfl, hst, if_pos ⟨rfl, rfl⟩]
    rfl

theorem adds_enterDone {s : State} (h : WavesOk s) (hu : Unforced s) (n r : Nat) : Adds s (s.enterDone n r) := by
  unfold State.enterDone
  split
  · exact .of_divider rfl
  · dsimp only
    split
    · exact .of_divider rfl
    · have h1 : WavesOk (s.updStep n r WaveStep.finish) := wavesOk_of_shaped h rfl rfl (Shaped.updStep s n r fun _ => rfl)
      have hu1 : Unforced (s.updStep n r WaveStep.finish) := fun m q b hb hw => by
        rw [State.step?_updStep s n r m q (g := WaveStep.finish) fun _ => rfl] at hb
        split at hb
        · obtain ⟨a, -, rfl⟩ := Option.map_eq_some_iff.1 hb
          cases hw
        · exact hu m q b hb hw
      exact adds_trigger h1 hu1 n r

/-! ### A release and a deadline action -/

/-- A release is of a HOLDING step that does not await its hold time, at a row that is not masked (R82). -/
theorem State.canRelease_spec {s : State} {n r : Nat} (h : s.canRelease n r = true) :
    ∃ w st, s.wave? n = some w ∧ w.step? r = some st ∧ st.state = .holding ∧ ¬st.Awaits ∧ s.masked r = false ∧ s.mark = .fresh := by
  unfold State.canRelease at h
  split at h
  · cases h
  · rename_i w hw
    rw [Bool.and_eq_true] at h
    obtain ⟨-, h⟩ := h
    split at h
    · cases h
    · rename_i st hst
      simp only [Bool.and_eq_true, Bool.or_eq_true, beq_iff_eq, Bool.not_eq_true'] at h
      obtain ⟨⟨⟨⟨⟨hh, hf⟩, hmark⟩, -⟩, hmask⟩, -⟩ := h
      refine ⟨w, st, hw, hst, hh, fun ha => ?_, hmask, hmark⟩
      rcases hf with hf | hf
      · rw [ha.forced] at hf; cases hf
      · simp only [State.gateSatisfied, Bool.and_eq_true, WaveStep.reachedA, ha.cmpA] at hf
        simp at hf

/-- A deadline action is of a HOLDING step that has reached P (R86). -/
theorem State.owesAction_spec {s : State} {n r : Nat} (h : s.owesAction n r = true) :
    ∃ st p, s.step? n r = some st ∧ st.state = .holding ∧ st.forced = false ∧ st.cmpP = some p ∧ p ≤ st.hold := by
  unfold State.owesAction at h
  split at h
  · cases h
  · rename_i w hw
    rw [Bool.and_eq_true] at h
    obtain ⟨-, h⟩ := h
    split at h
    · cases h
    · rename_i st hst
      simp only [Bool.and_eq_true, beq_iff_eq, Bool.not_eq_true', WaveStep.reachedP] at h
      obtain ⟨⟨hh, hp⟩, hf⟩ := h
      cases hc : st.cmpP with
      | none => rw [hc] at hp; cases hp
      | some p =>
        rw [hc] at hp
        exact ⟨st, p, by rw [State.step?, hw]; exact hst, hh, hf, hc, of_decide_eq_true hp⟩

theorem late_release {s : State} (h : WavesOk s) {n r : Nat} (hc : s.canRelease n r = true) :
    Goes (fun _ _ => Late) s (s.releaseStep n r) := by
  obtain ⟨w, st, hw, hst, hh, ha, -⟩ := s.canRelease_spec hc
  have hs : s.step? n r = some st := by rw [State.step?, hw]; exact hst
  have hg := goes_releaseStep h hw hst (by rw [hh]; rfl)
  intro m q
  have hmq := hg m q
  by_cases c : m = n ∧ q = r
  · obtain ⟨rfl, rfl⟩ := c
    rw [hs] at hmq ⊢
    have key : ∀ b, Releases m q m q st b → Late st b := fun b e => by
      rw [Releases, if_pos ⟨rfl, rfl⟩] at e
      refine Late.of_not_holding (by rw [hh]; rfl) ha ?_ ?_ <;> rcases e with e | e <;> simp [e]
    generalize (s.releaseStep m q).step? m q = y at hmq
    cases hmq with
    | left e t => exact .left (key _ e) t
    | kept e => exact .kept (key _ e)
  · refine hmq.mono fun {a b} e => ?_
    rw [Releases, if_neg c] at e
    exact .of_triggers e

theorem late_deadlineAction {s : State} (h : WavesOk s) {n r : Nat} (hc : s.owesAction n r = true) :
    Goes (fun _ _ => Late) s (s.deadlineAction n r) := by
  obtain ⟨st, p, hst, hh, hf, hp, -⟩ := s.owesAction_spec hc
  have hna : ¬st.Awaits := fun ha => by rw [ha.cmpP] at hp; cases hp
  have key : ∀ {f : WaveStep → WaveStep}, Late st (f st) → ∀ {t : State}, Goes (Ends AnyRow n r f) s t → Goes (fun _ _ => Late) s t := by
    intro f hl t hg m q
    have hmq := hg m q
    by_cases c : m = n ∧ q = r
    · obtain ⟨rfl, rfl⟩ := c
      rw [hst] at hmq ⊢
      generalize t.step? m q = y at hmq
      cases hmq with
      | left e t => rw [ends_self] at e; exact .left (e ▸ hl) t
      | kept e => rw [ends_self] at e; exact .kept (e ▸ hl)
    · exact hmq.mono fun {a b} e => .of_triggers ((ends_ne c).1 e)
  unfold State.deadlineAction
  rw [hst]
  dsimp only
  split
  · refine key (f := fun x => { x with forced := true }) ⟨fun e => ?_, fun e => absurd e hna, fun e => ?_, fun _ _ e => ?_⟩
      ((goes_updStep s n r (g := fun x => { x with forced := true }) fun _ => rfl).mono fun {m q a b} e => ?_)
    · rw [hh] at e; cases e
    · exact absurd (hh.symm.trans e) (by simp)
    · cases e
    · unfold Ends
      split
      · rename_i c; rw [if_pos c] at e; exact e
      · rename_i c; rw [if_neg c] at e; exact .inl e
  · exact key (f := WaveStep.skip) (Late.of_not_holding (by rw [hh]; rfl) hna (by simp [WaveStep.skip]) (by simp [WaveStep.skip])) (goes_skipStep h (startsAt_any _ n r) _)

/-! ### The loop -/

/-- The release tests by induction: what choices, releases and deadline actions keep. -/
theorem releaseLoop_induct {P : State → Prop} {R : State → State → Prop} (refl : ∀ u, R u u) (trans : ∀ {u v w}, R u v → R v w → R u w)
    (draw : ∀ (u : State) d, P u → P { u with draws := d } ∧ R u { u with draws := d })
    (release : ∀ (u : State) n r, P u → u.canRelease n r = true → P (u.releaseStep n r).completeWaves ∧ R u (u.releaseStep n r).completeWaves)
    (action : ∀ (u : State) n r, P u → u.owesAction n r = true → u.owesTest (n, r) = false → u.owesDeadline (n, r) = false →
      P (u.deadlineAction n r) ∧ R u (u.deadlineAction n r))
    (fuel : Nat) (released : List Nat) {s : State} (h : P s) : P (State.releaseLoop fuel released s) ∧ R s (State.releaseLoop fuel released s) := by
  induction fuel generalizing released s with
  | zero => exact ⟨h, refl s⟩
  | succ fuel ih =>
    unfold State.releaseLoop
    split
    · rename_i k s1 e
      obtain ⟨hk, d, rfl⟩ := State.choose_eq e
      have hc : s.canRelease k.1 k.2 = true := by
        have := (List.mem_filter.1 hk).2
        simp only [Bool.and_eq_true] at this
        exact this.1.1
      obtain ⟨h1, r1⟩ := draw s d h
      obtain ⟨h2, r2⟩ := release { s with draws := d } k.1 k.2 h1 hc
      obtain ⟨h3, r3⟩ := ih (k.1 :: released) h2
      exact ⟨h3, trans r1 (trans r2 r3)⟩
    · split
      · rename_i k s1 e
        obtain ⟨hk, d, rfl⟩ := State.choose_eq e
        have hc := (List.mem_filter.1 hk).2
        simp only [Bool.and_eq_true, Bool.not_eq_true'] at hc
        obtain ⟨⟨hc, ht⟩, hd⟩ := hc
        obtain ⟨h1, r1⟩ := draw s d h
        obtain ⟨h2, r2⟩ := action { s with draws := d } k.1 k.2 h1 hc ht hd
        obtain ⟨h3, r3⟩ := ih released h2
        exact ⟨h3, trans r1 (trans r2 r3)⟩
      · exact ⟨h, refl s⟩

/-- The turbines of masked rows stand, and the masks with them. -/
structure Spares (s t : State) : Prop where
  masked : ∀ r, t.masked r = s.masked r
  turbines : ∀ x ∈ s.turbines, s.masked x.config.row = true → x ∈ t.turbines
  neutral : t.neutral = s.neutral
  high : t.high = s.high
  mode : t.mode = s.mode

theorem Spares.refl (s : State) : Spares s s := ⟨fun _ => rfl, fun _ h _ => h, rfl, rfl, rfl⟩

theorem Spares.trans {s t u : State} (h : Spares s t) (k : Spares t u) : Spares s u :=
  ⟨fun r => (k.masked r).trans (h.masked r), fun x hx hm => k.turbines x (h.turbines x hx hm) ((h.masked _).trans hm),
    k.neutral.trans h.neutral, k.high.trans h.high, k.mode.trans h.mode⟩

theorem Spares.of_wavesOnly {s t : State} (h : WavesOnly s t) : Spares s t :=
  ⟨h.masked, fun _ hx _ => h.turbines ▸ hx, h.neutral, h.high, h.mode⟩

/-- A release handles members of its own row, which is not masked. -/
theorem spares_releaseMember (ts : List (Nat × Int)) (n r : Nat) {s : State} {node : Nat}
    (hl : ∀ x ∈ s.turbines, x.node = node → s.masked x.config.row = false) : Spares s (State.releaseMember ts n r s node) := by
  rcases State.releaseMember_cases ts n r s node with e | ⟨g, -, -, e⟩ | ⟨g, -, e⟩
  · rw [e]; exact Spares.refl s
  · rw [e]; exact .of_wavesOnly (WavesOnly.updStep s n r g)
  · rw [e]
    refine ⟨fun _ => rfl, fun x hx hm => ?_, rfl, rfl, rfl⟩
    exact relive_mem_of_ne (g := Live.request (.low n r) g) hx fun e => by rw [hl x hx e] at hm; cases hm

theorem spares_members (ts : List (Nat × Int)) (n r : Nat) (l : List Nat) {s : State}
    (hl : ∀ x ∈ s.turbines, x.node ∈ l → s.masked x.config.row = false) :
    Spares s (l.foldl (State.releaseMember ts n r) s) := by
  induction l generalizing s with
  | nil => exact Spares.refl s
  | cons node l ih =>
    have h1 := spares_releaseMember ts n r (s := s) (node := node) fun x hx e => hl x hx (e ▸ List.mem_cons_self)
    refine h1.trans (ih fun y hy hm => ?_)
    have hrep := (steady_propagates.releaseMember ts n r s node).turbines
    obtain ⟨x, hx, e⟩ := List.mem_map.1 (hrep ▸ List.mem_map_of_mem (f := Turbine.reported) hy)
    simp only [Turbine.reported, Prod.mk.injEq] at e
    rw [h1.masked, ← e.2.1]
    exact hl x hx (e.1 ▸ List.mem_cons_of_mem _ hm)

theorem spares_release {s : State} (h : RowTableOk s) {n r : Nat} (hc : s.canRelease n r = true) : Spares s (s.releaseStep n r) := by
  obtain ⟨w, st, hw, hst, -, -, hm, -⟩ := s.canRelease_spec hc
  rw [State.releaseStep_eq hw hst]
  have h1 : Spares s (s.releasing w st n r) := by
    refine Spares.trans (t := (s.updWave n fun x => x.releaseLatches st s.df s.uf).updStep n r fun x =>
      { x with forced := false, owesTest := false, owesDeadline := false }) (.of_wavesOnly rfl) (spares_members _ _ _ _ fun x hx hmem => ?_)
    change s.masked x.config.row = false
    rw [(h.mem_members_of_mem hx).1 hmem]
    exact hm
  generalize s.releasing w st n r = u at h1
  refine h1.trans (.of_wavesOnly ?_)
  unfold State.decideRelease
  split
  · exact WavesOnly.enterDone u n r
  · exact WavesOnly.updStep u n r _

theorem shaped_deadlineAction {s : State} (h : WavesOk s) {n r : Nat} (hc : s.owesAction n r = true) : Shaped s (s.deadlineAction n r) := by
  obtain ⟨st, p, hst, hh, -⟩ := s.owesAction_spec hc
  exact (Settling.deadlineAction h (Settling.not_busy_of_unreleased fun a ha => by cases hst.symm.trans ha; exact .inr hh)).shaped

/-- The release tests spare the masked rows, and their steps go late. -/
theorem releaseLoop_spares (fuel : Nat) (released : List Nat) {s : State} (h : Sound s) :
    Sound (State.releaseLoop fuel released s) ∧ Goes (fun _ _ => Late) s (State.releaseLoop fuel released s) ∧
      Spares s (State.releaseLoop fuel released s) ∧ Shaped s (State.releaseLoop fuel released s) := by
  refine releaseLoop_induct (P := Sound) (R := fun u v => Goes (fun _ _ => Late) u v ∧ Spares u v ∧ Shaped u v)
    (fun u => ⟨late_of_waves rfl, Spares.refl u, Shaped.refl u⟩)
    (fun ⟨a1, a2, a3⟩ ⟨b1, b2, b3⟩ => ⟨late_trans a1 b1, a2.trans b2, a3.trans b3⟩)
    (fun u d hu => ⟨Sound.of_ledger (s := u) rfl hu, late_of_waves rfl, ⟨fun _ => rfl, fun _ hx _ => hx, rfl, rfl, rfl⟩, Shaped.of_waves rfl⟩)
    (fun u n r hu hc => ?_) (fun u n r hu hc _ _ => ?_) fuel released h
  · have h1 := hu.releaseStep hc
    obtain ⟨w, st, hw, hst, -⟩ := u.canRelease_spec hc
    exact ⟨hu.release hc, late_trans (late_release hu.waves hc) (goes_completeWaves (fun _ _ => Late.refl) h1.waves),
      (spares_release hu.table hc).trans (.of_wavesOnly (WavesOnly.completeWaves _)),
      (shaped_releaseStep hu.waves hw hst).trans (Settling.completeWaves h1.waves).shaped⟩
  · exact ⟨hu.deadlineAction hc, late_deadlineAction hu.waves hc, .of_wavesOnly (WavesOnly.deadlineAction u n r),
      shaped_deadlineAction hu.waves hc⟩

/-! ### Where no deadline action is due -/

/-- The divider gains requests that are owed, and nothing is skipped. -/
structure Places (s t : State) : Prop where
  goes : Goes (fun _ _ => Late) s t
  adds : Unforced s → Adds s t
  skips : t.counters.skips = s.counters.skips

theorem Places.trans {s t u : State} (h : Places s t) (k : Places t u) : Places s u :=
  ⟨late_trans h.goes k.goes, fun hu => (h.adds hu).trans (k.adds (hu.goes h.goes)) k.goes, k.skips.trans h.skips⟩

/-- A change that leaves the waves, the divider and the counters. -/
theorem Places.of_same {s t : State} (hw : t.waves = s.waves) (hd : t.divider = s.divider) (hc : t.counters = s.counters) : Places s t :=
  ⟨late_of_waves hw, fun _ => .of_divider hd, by rw [hc]⟩

theorem skips_trigger (s : State) (n r : Nat) : (s.trigger n r).counters = s.counters := by
  unfold State.trigger
  split
  · split
    · unfold State.enterHolding
      split
      · rfl
      · split <;> rfl
    · rfl
  · rfl

theorem skips_enterDone (s : State) (n r : Nat) : (s.enterDone n r).counters = s.counters := by
  unfold State.enterDone
  split
  · rfl
  · dsimp only
    split
    · rfl
    · rw [skips_trigger]; rfl

theorem completeWaves_aside (s : State) : s.completeWaves.divider = s.divider ∧ s.completeWaves.counters.skips = s.counters.skips := by
  unfold State.completeWaves
  generalize s.waves.filter Wave.finished = l
  induction l generalizing s with
  | nil => exact ⟨rfl, rfl⟩
  | cons w l ih => exact ih (s.completeWave w)

theorem places_completeWaves {s : State} (h : WavesOk s) : Places s s.completeWaves :=
  ⟨goes_completeWaves (fun _ _ => Late.refl) h, fun _ => .of_divider (completeWaves_aside s).1, (completeWaves_aside s).2⟩

theorem members_aside (ts : List (Nat × Int)) (n r : Nat) (l : List Nat) (s : State) :
    (l.foldl (State.releaseMember ts n r) s).divider = s.divider ∧ (l.foldl (State.releaseMember ts n r) s).counters = s.counters := by
  induction l generalizing s with
  | nil => exact ⟨rfl, rfl⟩
  | cons node l ih =>
    have h1 : (State.releaseMember ts n r s node).divider = s.divider ∧ (State.releaseMember ts n r s node).counters = s.counters := by
      unfold State.releaseMember
      split
      · exact ⟨rfl, rfl⟩
      · split
        · exact ⟨rfl, rfl⟩
        · split
          · exact ⟨rfl, rfl⟩
          · split <;> exact ⟨rfl, rfl⟩
    exact ⟨(ih _).1.trans h1.1, (ih _).2.trans h1.2⟩

theorem places_release {s : State} (h : WavesOk s) {n r : Nat} (hc : s.canRelease n r = true) : Places s (s.releaseStep n r) := by
  obtain ⟨w, st, hw, hst, hh, -⟩ := s.canRelease_spec hc
  have hs : s.step? n r = some st := by rw [State.step?, hw]; exact hst
  refine ⟨late_release h hc, fun hu => ?_, ?_⟩ <;> rw [State.releaseStep_eq hw hst]
  · have hm := marks_releasing s w st n r
    have hok := wavesOk_releasing h w st n r
    have hd : (s.releasing w st n r).divider = s.divider := (members_aside _ _ _ _ _).1
    generalize s.releasing w st n r = u at hm hok hd
    have hu1 : Unforced u := fun m q b hb hwait => by
      obtain ⟨a, ha, e⟩ := hm.kept_from hb
      unfold Marks at e
      split at e
      · rename_i c
        obtain ⟨rfl, rfl⟩ := c
        cases hs.symm.trans ha
        rw [e, hh] at hwait
        cases hwait
      · rw [e] at hwait ⊢
        exact hu m q a ha hwait
    obtain ⟨p, hp, op⟩ : Adds u (u.decideRelease n r) := by
      unfold State.decideRelease
      split
      · exact adds_enterDone hok hu1 n r
      · exact .of_divider rfl
    exact ⟨p, by rw [hp, hd], op⟩
  · have hk : (s.releasing w st n r).counters = s.counters := (members_aside _ _ _ _ _).2
    generalize s.releasing w st n r = u at hk
    rw [← hk]
    unfold State.decideRelease
    split
    · rw [skips_enterDone]
    · rfl

/-- Where no deadline action is due, the release tests place requests at most (R86). -/
theorem releaseLoop_places (fuel : Nat) (released : List Nat) {s : State} (h : Sound s) (hn : NoneDue s) :
    Places s (State.releaseLoop fuel released s) := by
  refine (releaseLoop_induct (P := fun u => Sound u ∧ NoneDue u) (R := Places)
    (fun u => .of_same rfl rfl rfl) Places.trans (fun u d hu => ⟨⟨Sound.of_ledger (s := u) rfl hu.1, hu.2⟩, .of_same rfl rfl rfl⟩)
    (fun u n r hu hc => ?_) (fun u n r hu hc ht hd => ?_) fuel released ⟨h, hn⟩).2
  · have h1 := hu.1.releaseStep hc
    have hp := (places_release hu.1.waves hc).trans (places_completeWaves h1.waves)
    exact ⟨⟨hu.1.release hc, hu.2.goes hp.goes⟩, hp⟩
  · obtain ⟨st, p, hst, hh, hf, hp, hle⟩ := u.owesAction_spec hc
    simp only [State.owesTest, State.owesDeadline, hst] at ht hd
    exact absurd (hu.2 n r st hst hh hf ht hd p hp) (Nat.not_lt.2 hle)

end Sys2Proof.Machine

/-! The arbiter at the end of an event: what its frames make of steps, turbines, the neutral context and the divider. -/

namespace Sys2Proof.Machine

/-! ### Steps -/

/-- What grants make of a step: one that moves turbines goes on moving them, and another stands or starts (R93, R96). -/
structure Grants (a b : WaveStep) : Prop where
  active : a.state.active → b.state.active
  idle : ¬a.state.active → Early a b

theorem Grants.refl (a : WaveStep) : Grants a a := ⟨id, fun _ => .refl a⟩

theorem WaveStep.start_idle (a : WaveStep) : ¬a.start.state.active := by simp [WaveStep.start, StepState.active]

theorem Early.idle {a b : WaveStep} (h : Early a b) (ha : ¬a.state.active) : ¬b.state.active := by
  rcases h with rfl | ⟨-, rfl⟩
  · exact ha
  · exact a.start_idle

theorem Grants.trans {a b c : WaveStep} (h : Grants a b) (k : Grants b c) : Grants a c :=
  ⟨fun e => k.active (h.active e), fun e => (h.idle e).trans (k.idle ((h.idle e).idle e))⟩

theorem not_terminal_of_active {x : StepState} (h : x.active) : x.terminal = false := by rcases h with rfl | rfl <;> rfl

theorem Grants.late {a b : WaveStep} (h : Grants a b) : Late a b := by
  by_cases ha : a.state.active
  · have hb := h.active ha
    refine Late.of_not_holding (not_terminal_of_active ha) (fun e => ?_) (fun e => ?_) (fun e => ?_)
    · rw [e.state] at ha; rcases ha with e | e <;> cases e
    · rw [e] at hb; rcases hb with e | e <;> cases e
    · rw [e] at hb; rcases hb with e | e <;> cases e
  · rcases h.idle ha with rfl | ⟨hw, rfl⟩
    · exact .refl _
    · exact late_start hw

theorem Grants.of_triggers {S : Nat → Prop} {n m q : Nat} {a b : WaveStep} (h : Triggers S n m q a b) : Grants a b := by
  rcases h with rfl | ⟨-, -, hw, rfl⟩
  · exact .refl _
  · refine ⟨fun e => ?_, fun _ => .inr ⟨hw, rfl⟩⟩
    rw [hw] at e
    rcases e with e | e <;> cases e

theorem grants_trans {s t u : State} (h : Goes (fun _ _ => Grants) s t) (k : Goes (fun _ _ => Grants) t u) : Goes (fun _ _ => Grants) s u :=
  h.trans k (fun _ _ _ _ _ => Grants.refl _) Grants.trans

theorem grants_of_waves {s t : State} (h : t.waves = s.waves) : Goes (fun _ _ => Grants) s t := .of_waves (fun _ _ => Grants.refl) h

theorem late_of_grants {s t : State} (h : Goes (fun _ _ => Grants) s t) : Goes (fun _ _ => Late) s t := h.mono Grants.late

/-- A step that moves turbines. -/
def ActiveAt (s : State) (n r : Nat) : Prop := ∃ st, s.step? n r = some st ∧ st.state.active

theorem ActiveAt.goes {s t : State} (h : Goes (fun _ _ => Grants) s t) {n r : Nat} (ha : ActiveAt s n r) : ActiveAt t n r := by
  obtain ⟨st, hst, hact⟩ := ha
  have hg := h n r
  rw [hst] at hg
  generalize ht : t.step? n r = y at hg
  cases hg with
  | left g e => rw [not_terminal_of_active (g.active hact)] at e; cases e
  | kept g => exact ⟨_, ht, g.active hact⟩

theorem grants_updStep {s : State} {n r : Nat} (ha : ActiveAt s n r) {g : WaveStep → WaveStep} (hg : ∀ x, (g x).row = x.row)
    (hs : ∀ x, x.state.active → (g x).state.active) : Goes (fun _ _ => Grants) s (s.updStep n r g) := by
  obtain ⟨st, hst, hact⟩ := ha
  intro m q
  rw [State.step?_updStep s n r m q hg]
  split
  · rename_i c
    obtain ⟨rfl, rfl⟩ := c
    rw [hst]
    exact .kept ⟨fun _ => hs st hact, fun e => absurd hact e⟩
  · exact .of_eq Grants.refl rfl

/-- What a grant places and leaves: requests that are owed, and no count or notice. -/
structure Tells (s t : State) : Prop where
  goes : Goes (fun _ _ => Grants) s t
  shaped : Shaped s t
  adds : Unforced s → Adds s t
  counters : t.counters = s.counters
  queueU : t.queueU = s.queueU

theorem Tells.trans {s t u : State} (h : Tells s t) (k : Tells t u) : Tells s u :=
  ⟨grants_trans h.goes k.goes, h.shaped.trans k.shaped, fun hu => (h.adds hu).trans (k.adds (hu.goes (late_of_grants h.goes))) (late_of_grants k.goes),
    k.counters.trans h.counters, k.queueU.trans h.queueU⟩

theorem Tells.of_same {s t : State} (hw : t.waves = s.waves) (hd : t.divider = s.divider) (hc : t.counters = s.counters) (hq : t.queueU = s.queueU) :
    Tells s t := ⟨grants_of_waves hw, Shaped.of_waves hw, fun _ => .of_divider hd, hc, hq⟩

theorem queueU_trigger (s : State) (n r : Nat) : (s.trigger n r).queueU = s.queueU := by
  unfold State.trigger
  split
  · split
    · unfold State.enterHolding
      split
      · rfl
      · split <;> rfl
    · rfl
  · rfl

theorem tells_trigger {s : State} (h : WavesOk s) (n r : Nat) : Tells s (s.trigger n r) :=
  ⟨(goes_trigger h (startsAt_any s n r)).mono Grants.of_triggers, (Settling.trigger h n r).shaped, fun hu => adds_trigger h hu n r,
    skips_trigger s n r, queueU_trigger s n r⟩

theorem tells_updStep {s : State} {n r : Nat} (ha : ActiveAt s n r) {g : WaveStep → WaveStep} (hg : ∀ x, (g x).row = x.row)
    (hs : ∀ x, x.state.active → (g x).state.active) : Tells s (s.updStep n r g) :=
  ⟨grants_updStep ha hg hs, Shaped.updStep s n r hg, fun _ => .of_divider rfl, rfl, rfl⟩

/-- A grant to a turbine of a LOW step that moves turbines (R92, R93). -/
theorem tells_grantedLow {s : State} (h : WavesOk s) {n r : Nat} (ha : ActiveAt s n r) : Tells s (s.grantedLow n r) := by
  obtain ⟨st, hst, hact⟩ := id ha
  unfold State.grantedLow
  rw [hst]
  dsimp only
  have key : ∀ u, Tells s u → Tells s (if st.state = .releasing ∧ u.queuedFor n r = [] then
      u.updStep n r fun x => { x with state := .moving } else u) := fun u hu => by
    split
    · exact hu.trans (tells_updStep (ha.goes hu.goes) (g := fun x => { x with state := .moving }) (fun _ => rfl) fun _ _ => .inr rfl)
    · exact hu
  split
  · have h0 : Tells s (s.updStep n r fun x => { x with rel := some x.hold }) := tells_updStep ha (fun _ => rfl) fun _ => id
    have hok : WavesOk (s.updStep n r fun x => { x with rel := some x.hold }) :=
      wavesOk_of_shaped h rfl rfl (Shaped.updStep s n r fun _ => rfl)
    split
    · exact key _ (h0.trans (tells_trigger hok n r))
    · exact key _ h0
  · exact key _ (.of_same rfl rfl rfl rfl)

/-! ### Turbines and the neutral context -/

/-- What a frame makes of a turbine: one that waited is MOVING, for a neutral step in a HIGH slot and to 0 (R130, R138). -/
def Granted (x y : Turbine) : Prop :=
  y = x ∨ (x.live.move = .queued ∨ x.live.move = .retarget) ∧ ∃ c g, y = { x with live := x.live.granted c g } ∧
    ∀ r, x.live.owner = some (.neutral r) → c = .high ∧ g = 0

theorem Granted.trans {x y z : Turbine} (h : Granted x y) (k : Granted y z) : Granted x z := by
  rcases h with rfl | ⟨hm, c, g, rfl, hr⟩
  · exact k
  · rcases k with rfl | ⟨hm', -⟩
    · exact .inr ⟨hm, c, g, rfl, hr⟩
    · simp [Live.granted] at hm'

/-- What grants make of a neutral step (R155). -/
def Advances (k k' : NeutralStep) : Prop := k' = { k with state := k'.state } ∧ (k'.state = k.state ∨ (k.state = .releasing ∧ k'.state = .moving))

theorem Advances.refl (k : NeutralStep) : Advances k k := ⟨rfl, .inl rfl⟩

theorem Advances.trans {a b c : NeutralStep} (h : Advances a b) (k : Advances b c) : Advances a c := by
  obtain ⟨e1, h⟩ := h
  obtain ⟨e2, k⟩ := k
  refine ⟨by rw [e2, e1], ?_⟩
  rcases h with h | ⟨h1, h2⟩
  · rw [h] at k; exact k
  · rcases k with k | ⟨k1, k2⟩
    · exact .inr ⟨h1, k.trans h2⟩
    · rw [h2] at k1; cases k1

theorem NeutralStep.advances (k : NeutralStep) : Advances k k.advance := by
  unfold NeutralStep.advance
  split
  · rename_i h; exact ⟨rfl, .inr ⟨h, rfl⟩⟩
  · exact .refl k

/-- A neutral step at the row is RELEASING only while a request of it is in the HIGH list (R154, R155). -/
def Queueing (s : State) (r : Nat) : Prop := ∀ k ∈ s.neutral.steps, k.row = r → k.state = .releasing → s.neutralQueued r = true

/-- The grant condition fails for LOW (R128). -/
def LowBlocked (s : State) : Prop := s.low = [] ∨ s.params.budget ≤ s.slots ∨ s.holdActive = true

/-- What the arbiter's frames do. -/
structure Serves (s t : State) : Prop where
  tells : Tells s t
  mode : t.mode = s.mode
  turbines : ∀ x ∈ s.turbines, ∃ y ∈ t.turbines, Granted x y
  active : t.neutral.active = s.neutral.active
  cause : t.neutral.cause = s.neutral.cause
  steps : List.Forall₂ Advances s.neutral.steps t.neutral.steps
  queueing : ∀ r, Queueing s r → Queueing t r
  blocked : LowBlocked s → LowBlocked t ∧
    ∃ placed : List DivEntry, t.divider = placed.foldl Divider.place s.divider ∧ ∀ e ∈ placed, ∃ n, e.requester = .deadline n

theorem Serves.refl (s : State) : Serves s s where
  tells := .of_same rfl rfl rfl rfl
  mode := rfl
  turbines x hx := ⟨x, hx, .inl rfl⟩
  active := rfl
  cause := rfl
  steps := List.forall₂_same.2 fun k _ => .refl k
  queueing _ := id
  blocked h := ⟨h, [], rfl, by simp⟩

theorem forall₂_trans {α : Type} {R : α → α → Prop} (hR : ∀ {a b c}, R a b → R b c → R a c) {l m n : List α} (h : List.Forall₂ R l m)
    (k : List.Forall₂ R m n) : List.Forall₂ R l n := by
  induction h generalizing n with
  | nil => cases k; exact .nil
  | cons a _ ih => cases k with | cons b k => exact .cons (hR a b) (ih k)

theorem Serves.trans {s t u : State} (h : Serves s t) (k : Serves t u) : Serves s u where
  tells := h.tells.trans k.tells
  mode := k.mode.trans h.mode
  turbines x hx := by
    obtain ⟨y, hy, a⟩ := h.turbines x hx
    obtain ⟨z, hz, b⟩ := k.turbines y hy
    exact ⟨z, hz, a.trans b⟩
  active := k.active.trans h.active
  cause := k.cause.trans h.cause
  steps := forall₂_trans (R := Advances) Advances.trans h.steps k.steps
  queueing r hq := k.queueing r (h.queueing r hq)
  blocked hb := by
    obtain ⟨h1, p, hp, op⟩ := h.blocked hb
    obtain ⟨h2, q, hq, oq⟩ := k.blocked h1
    exact ⟨h2, p ++ q, by rw [hq, hp, List.foldl_append], fun e he => (List.mem_append.1 he).elim (op e) (oq e)⟩

/-! ### One frame -/

theorem ownerOf_relive {s t : State} {x : Turbine} {c : SlotClass} {g : Int} (h : t.turbines = relive x.node (Live.granted c g) s.turbines)
    (m : Nat) : t.ownerOf m = s.ownerOf m := by
  have e : t.turbine? m = (s.updLive x.node (Live.granted c g)).turbine? m := by
    simp only [State.turbine?, h, State.updLive_turbines]
  rw [State.ownerOf, e, State.turbine?_updLive, State.ownerOf]
  cases s.turbine? m with
  | none => rfl
  | some y => simp only [Option.map_some, Option.bind_some]; split <;> rfl

theorem turbines_relive {s t : State} (hnd : (s.turbines.map fun t => t.node).Nodup) {x : Turbine} (hx : x ∈ s.turbines) {c : SlotClass} {g : Int}
    (h : t.turbines = relive x.node (Live.granted c g) s.turbines) (hm : x.live.move = .queued ∨ x.live.move = .retarget)
    (hr : ∀ r, x.live.owner = some (.neutral r) → c = .high ∧ g = 0) : ∀ y ∈ s.turbines, ∃ z ∈ t.turbines, Granted y z := fun y hy => by
  rw [h]
  by_cases e : y.node = x.node
  · obtain rfl := List.inj_on_of_nodup_map hnd hy hx e
    exact ⟨_, relive_mem hx rfl, .inr ⟨hm, c, g, rfl, hr⟩⟩
  · exact ⟨y, relive_mem_of_ne hy e, .inl rfl⟩

theorem tells_place {s t : State} {e : DivEntry} (he : ∃ n, e.requester = .deadline n) (hw : t.waves = s.waves)
    (hd : t.divider = s.divider.place e) (hc : t.counters = s.counters) (hq : t.queueU = s.queueU) : Tells s t := by
  obtain ⟨n, hn⟩ := he
  refine ⟨grants_of_waves hw, Shaped.of_waves hw, fun _ => ⟨[e], hd, fun x hx => ?_⟩, hc, hq⟩
  rw [List.mem_singleton.1 hx, Owed, hn]
  trivial

theorem serves_retargetNode {s : State} (h : Sound s) {n : Nat} {rest : List Nat} (hl : s.retargets = n :: rest) :
    Serves s (s.retargetNode n) := by
  obtain ⟨x, hx, rfl, hw⟩ := h.books.retargets.2.1 n (by rw [show s.desk.retargets = s.retargets from rfl, hl]; exact List.mem_cons_self)
  have hm : x.live.move = .retarget := by simpa [Turbine.retargeting] using hw
  rw [State.retargetNode_eq (h.table.turbine?_of_mem hx)]
  have ht : (State.framed { s with retargets := s.retargets.tail } x .high 0 0).turbines = relive x.node (Live.granted .high 0) s.turbines := rfl
  refine
    { tells := tells_place ⟨x.node, rfl⟩ rfl rfl rfl rfl
      mode := rfl
      turbines := turbines_relive h.table.nodes_nodup hx ht (.inr hm) fun _ _ => ⟨rfl, rfl⟩
      active := rfl
      cause := rfl
      steps := List.forall₂_same.2 fun k _ => .refl k
      queueing := fun r hq k hk hr hs => ?_
      blocked := fun hb => ⟨hb, [x.deadlineRequest 0], rfl, fun e he => ⟨x.node, by rw [List.mem_singleton.1 he]; rfl⟩⟩ }
  have := hq k hk hr hs
  simp only [State.neutralQueued, ownerOf_relive ht] at this ⊢
  exact this

/-- The state in which an owner is told of a grant: what is placed and left. -/
theorem State.granting_aside (s : State) (x : Turbine) (c : SlotClass) (g : Int) (set : Nat) :
    (((s.dequeue c).framed x c g set).takeSlot c).divider = s.divider.place (x.deadlineRequest g) ∧
      (((s.dequeue c).framed x c g set).takeSlot c).counters = s.counters ∧
      (((s.dequeue c).framed x c g set).takeSlot c).queueU = s.queueU ∧
      (((s.dequeue c).framed x c g set).takeSlot c).params = s.params ∧
      (((s.dequeue c).framed x c g set).takeSlot c).yholdLine = s.yholdLine := by
  cases c <;> simp only [State.takeSlot, State.framed, State.place, State.updLive, State.sendD, State.dequeue, and_self]

theorem serves_grantLow {s : State} (h : Sound s) {n : Nat} {rest : List Nat} (hl : s.low = n :: rest) (hh : s.high = [])
    (hroom : s.slots < s.params.budget) (hhold : s.holdActive = false) : Serves s (s.grantNode n .low) := by
  obtain ⟨x, hx, rfl, hw⟩ := h.books.low.2.1 n (by rw [show s.desk.low = s.low from rfl, hl]; exact List.mem_cons_self)
  obtain ⟨hm, hs, w, r, ho⟩ := h.books.waiting_low hx hw
  rw [State.grantNode_eq (h.table.turbine?_of_mem hx) .low, ho]
  obtain ⟨f1, f2, f3, f4, f5, f6⟩ := s.granting_fields x .low (x.live.target.getD 0) (s.ownerSet (some (.low w r)))
  obtain ⟨g1, g2, g3, -⟩ := s.granting_aside x .low (x.live.target.getD 0) (s.ownerSet (some (.low w r)))
  have g4 : (((s.dequeue .low).framed x .low (x.live.target.getD 0) (s.ownerSet (some (.low w r)))).takeSlot .low).high = s.high := rfl
  generalize ((s.dequeue .low).framed x .low (x.live.target.getD 0) (s.ownerSet (some (.low w r)))).takeSlot .low = v at *
  have hok : WavesOk v := wavesOk_of_shaped h.waves (plans_of_layout f1) f2 (Shaped.of_waves f3)
  have hact : ActiveAt v w r := by
    obtain ⟨a, ha, hp⟩ := (h.books.owners x hx _ ho).2.busy
    obtain ⟨st, hst, rfl⟩ := Option.map_eq_some_iff.1 (Option.mem_def.1 ha)
    exact ⟨st, by rw [step?_congr f3]; exact hst, (phase_active_iff _).1 hp⟩
  have htell := (tells_place ⟨x.node, rfl⟩ f3 g1 g2 g3).trans (tells_grantedLow hok hact)
  have hw := WavesOnly.grantedLow v w r
  change Serves s (v.grantedLow w r)
  have ht := hw.turbines.trans f6
  refine
    { tells := htell
      mode := hw.mode.trans f5
      turbines := turbines_relive h.table.nodes_nodup hx ht (.inl hm) fun q hq => by rw [ho] at hq; cases hq
      active := by rw [hw.neutral, f4]
      cause := by rw [hw.neutral, f4]
      steps := by rw [hw.neutral, f4]; exact List.forall₂_same.2 fun k _ => .refl k
      queueing := fun q hq k hk hr hst => ?_
      blocked := fun hb => ?_ }
  · rw [hw.neutral, f4] at hk
    have := hq k hk hr hst
    simp [State.neutralQueued, hh] at this
  · rcases hb with hb | hb | hb
    · rw [hl] at hb; cases hb
    · omega
    · rw [hhold] at hb; cases hb

theorem serves_grantHigh {s : State} (h : Sound s) {n : Nat} {rest : List Nat} (hl : s.high = n :: rest) : Serves s (s.grantNode n .high) := by
  obtain ⟨x, hx, rfl, hw⟩ := h.books.high.2.1 n (by rw [show s.desk.high = s.high from rfl, hl]; exact List.mem_cons_self)
  obtain ⟨hm, hs, r, ho⟩ := h.books.waiting_high hx hw
  have h0 : x.live.target.getD 0 = 0 := by
    have := h.books.aims hx ho
    rw [show x.live.target = some 0 from this]
    rfl
  rw [State.grantNode_eq (h.table.turbine?_of_mem hx) .high, ho, h0]
  obtain ⟨f1, f2, f3, f4, f5, f6⟩ := s.granting_fields x .high 0 (s.ownerSet (some (.neutral r)))
  obtain ⟨g1, g2, g3, g4, g5⟩ := s.granting_aside x .high 0 (s.ownerSet (some (.neutral r)))
  have g6 : (((s.dequeue .high).framed x .high 0 (s.ownerSet (some (.neutral r)))).takeSlot .high).high = rest := by
    rw [show rest = s.high.tail by rw [hl]; rfl]; rfl
  have g7 : (((s.dequeue .high).framed x .high 0 (s.ownerSet (some (.neutral r)))).takeSlot .high).low = s.low := rfl
  have g8 : s.slots ≤ (((s.dequeue .high).framed x .high 0 (s.ownerSet (some (.neutral r)))).takeSlot .high).slots :=
    Nat.add_le_add_left (Nat.le_succ s.highSlots) s.lowSlots
  generalize ((s.dequeue .high).framed x .high 0 (s.ownerSet (some (.neutral r)))).takeSlot .high = v at *
  have hhead : s.ownerOf x.node = some (.neutral r) := by simp [State.ownerOf, h.table.turbine?_of_mem hx, ho]
  have hqueued : ∀ q, q ≠ r → s.neutralQueued q = v.neutralQueued q := fun q hq => by
    simp only [State.neutralQueued, hl, g6, List.any_cons, hhead, ownerOf_relive f6]
    simp [hq.symm]
  have hhold : v.holdActive = s.holdActive := by simp only [State.holdActive, g4, g5]
  have hblock : LowBlocked s → LowBlocked v := fun hb => by
    rcases hb with hb | hb | hb
    · exact .inl (g7.trans hb)
    · exact .inr (.inl (by rw [g4]; omega))
    · exact .inr (.inr (hhold.trans hb))
  have hdiv : ∃ placed : List DivEntry, v.divider = placed.foldl Divider.place s.divider ∧ ∀ e ∈ placed, ∃ n, e.requester = .deadline n :=
    ⟨[x.deadlineRequest 0], g1, fun e he => ⟨x.node, by rw [List.mem_singleton.1 he]; rfl⟩⟩
  have hpl := tells_place ⟨x.node, rfl⟩ f3 g1 g2 g3
  have htur := turbines_relive h.table.nodes_nodup hx f6 (.inl hm) fun _ _ => ⟨rfl, rfl⟩
  change Serves s (v.grantedNeutral r)
  unfold State.grantedNeutral
  split
  · rename_i hq
    refine
      { tells := hpl, mode := f5, turbines := htur
        active := by rw [f4], cause := by rw [f4]
        steps := by rw [f4]; exact List.forall₂_same.2 fun k _ => .refl k
        queueing := fun q hqs k hk hr hst => ?_
        blocked := fun hb => ⟨hblock hb, hdiv⟩ }
    rw [f4] at hk
    by_cases e : q = r
    · rw [e]; exact hq
    · rw [← hqueued q e]; exact hqs k hk hr hst
  · rename_i hq
    have hsteps : (v.updNeutral r NeutralStep.advance).neutral.steps = s.neutral.steps.map fun k => if k.row = r then k.advance else k := by
      rw [← f4]; rfl
    change Serves s (v.updNeutral r NeutralStep.advance)
    refine
      { tells := hpl.trans (.of_same rfl rfl rfl rfl), mode := f5, turbines := htur
        active := by rw [← f4]; rfl
        cause := by rw [← f4]; rfl
        steps := ?_
        queueing := fun q hqs k' hk' hr hst => ?_
        blocked := fun hb => ⟨hblock hb, hdiv⟩ }
    · rw [hsteps, List.forall₂_map_right_iff]
      refine List.forall₂_same.2 fun k _ => ?_
      split
      · exact k.advances
      · exact .refl k
    · rw [hsteps] at hk'
      obtain ⟨k, hk, rfl⟩ := List.mem_map.1 hk'
      change v.neutralQueued q = true
      by_cases c : k.row = r
      · rw [if_pos c] at hst
        unfold NeutralStep.advance at hst
        split at hst
        · cases hst
        · contradiction
      · rw [if_neg c] at hr hst
        rw [← hqueued q fun e => c (hr.trans e)]
        exact hqs k hk hr hst

/-! ### The loop -/

theorem serves_arbiterStep {s t : State} (h : Sound s) (e : s.arbiterStep = some t) : Serves s t := by
  unfold State.arbiterStep at e
  split at e
  · rename_i n rest hl
    split at e
    · cases e
    · cases e; exact serves_retargetNode h hl
  · obtain ⟨⟨n, c⟩, hg, rfl⟩ := Option.map_eq_some_iff.1 e
    unfold State.grantable at hg
    split at hg
    · cases hg
    · split at hg
      · rename_i hl
        split at hg
        · cases hg; exact serves_grantHigh h hl
        · cases hg
      · rename_i hh hl
        split at hg
        · rename_i hc; cases hg; exact serves_grantLow h hl hh hc.1 hc.2
        · cases hg
      · cases hg

theorem serves_arbiterLoop (fuel : Nat) {s : State} (h : Sound s) : Serves s (State.arbiterLoop fuel s) := by
  induction fuel generalizing s with
  | zero => exact Serves.refl s
  | succ fuel ih =>
    unfold State.arbiterLoop
    split
    · rename_i e; exact (serves_arbiterStep h e).trans (ih (h.arbiterStep e))
    · exact Serves.refl s

end Sys2Proof.Machine

/-! The arbiter's rounds are enough: at the end of an event it has nothing left to do (R129, R138). -/

namespace Sys2Proof.Machine

/-- The entries of the three lists that the arbiter serves. -/
def State.waiting (s : State) : Nat := s.retargets.length + s.high.length + s.low.length

theorem waiting_tellGranted (s : State) (o : Option Owner) : (s.tellGranted o).waiting = s.waiting := by
  unfold State.tellGranted
  split
  · rename_i w r
    have h := WavesOnly.grantedLow s w r
    simp only [State.waiting, h.retargets, h.high, h.low]
  · unfold State.grantedNeutral
    split <;> rfl
  · rfl

theorem waiting_grantNode (s : State) (n : Nat) (c : SlotClass) : (s.grantNode n c).waiting = (s.dequeue c).waiting := by
  cases h : s.turbine? n with
  | none => rw [State.grantNode_absent h]
  | some t =>
    rw [State.grantNode_eq h, waiting_tellGranted]
    rfl

theorem waiting_grantHigh (s : State) (n : Nat) :
    (s.grantNode n .high).waiting = s.retargets.length + s.high.tail.length + s.low.length := waiting_grantNode s n .high

theorem waiting_grantLow (s : State) (n : Nat) :
    (s.grantNode n .low).waiting = s.retargets.length + s.high.length + s.low.tail.length := waiting_grantNode s n .low

theorem waiting_retargetNode (s : State) (n : Nat) : (s.retargetNode n).waiting = s.retargets.tail.length + s.high.length + s.low.length := by
  cases h : s.turbine? n with
  | none => rw [State.retargetNode_absent h]; rfl
  | some t => rw [State.retargetNode_eq h]; rfl

/-- Every frame takes the head of a list. -/
theorem waiting_arbiterStep {s t : State} (e : s.arbiterStep = some t) : t.waiting + 1 = s.waiting := by
  unfold State.arbiterStep at e
  split at e
  · rename_i n rest hl
    split at e
    · cases e
    · cases e
      rw [waiting_retargetNode, State.waiting, hl, List.tail_cons, List.length_cons]
      omega
  · obtain ⟨⟨n, c⟩, hg, rfl⟩ := Option.map_eq_some_iff.1 e
    unfold State.grantable at hg
    split at hg
    · cases hg
    · split at hg
      · rename_i hl
        split at hg
        · cases hg
          rw [waiting_grantHigh, State.waiting, hl, List.tail_cons, List.length_cons]
          omega
        · cases hg
      · rename_i hl
        split at hg
        · cases hg
          rw [waiting_grantLow, State.waiting, hl, List.tail_cons, List.length_cons]
          omega
        · cases hg
      · cases hg

/-- The arbiter can place no frame exactly when it has nothing left to do. -/
theorem arbiterServed_iff (s : State) : ArbiterServed s ↔ s.arbiterStep = none := by
  unfold ArbiterServed State.arbiterStep State.freePlaces ownFrames
  cases s.retargets with
  | nil => simp
  | cons n rest =>
    simp only [reduceCtorEq, false_or, false_implies, and_true]
    split
    · simp; omega
    · simp; omega

theorem arbiterLoop_served (fuel : Nat) {s : State} (h : s.waiting ≤ fuel) : ArbiterServed (State.arbiterLoop fuel s) := by
  induction fuel generalizing s with
  | zero =>
    refine (arbiterServed_iff s).2 ?_
    cases e : s.arbiterStep with
    | none => rfl
    | some t => have := waiting_arbiterStep e; omega
  | succ fuel ih =>
    unfold State.arbiterLoop
    split
    · rename_i t e
      have := waiting_arbiterStep e
      exact ih (by omega)
    · rename_i e
      exact (arbiterServed_iff s).2 e

theorem serveArbiter_served (s : State) : ArbiterServed s.serveArbiter := arbiterLoop_served _ (Nat.le_refl _)

theorem serves_serveArbiter {s : State} (h : Sound s) : Serves s s.serveArbiter := serves_arbiterLoop _ h

theorem serveArbiter_of_served {s : State} (h : ArbiterServed s) : s.serveArbiter = s := by
  unfold State.serveArbiter
  cases s.retargets.length + s.high.length + s.low.length with
  | zero => rfl
  | succ fuel =>
    unfold State.arbiterLoop
    rw [(arbiterServed_iff s).1 h]

end Sys2Proof.Machine

/-! The release of a neutral step, member by member, exactly (R125, R137, R154). -/

namespace Sys2Proof.Machine

/-! ### One member -/

theorem atRest_congr {s t : State} (h : t.params = s.params) (x : Turbine) : atRest t x = atRest s x := by simp only [atRest, h]

/-- A member that is IDLE is at rest when its FAULT flag is set or it is settled at 0 (R154). -/
theorem atRest_idle {s : State} {x : Turbine} (hm : x.live.move = .idle) :
    atRest s x = (x.live.fault || x.live.settledAt s.params.tolerance 0) := by
  unfold atRest Live.settledAt
  rw [hm]
  cases x.live.applied <;> simp

theorem not_atRest {s : State} {x : Turbine} (hm : x.live.move ≠ .idle) : atRest s x = false := by
  cases h : x.live.move <;> simp_all [atRest]

/-- The record of a member that the release of a neutral step drives to 0 (R125, R137, R154). -/
def Live.driven (r : Nat) (l : Live) : Live := if l.move = .moving then l.retargeted r else l.request (.neutral r) 0

/-- A LOW owner's turbine that moves: it loses its deadline at a retarget (R137). -/
def Turbine.moves (x : Turbine) : Bool := x.live.move == .moving && x.live.slot == some .low

/-- What the release of a neutral step makes of a member that it does not own yet: the first line of R154 that applies. -/
inductive MemberTaken (u : State) (r : Nat) (x : Turbine) : State → Prop
  | faulted (hm : x.live.move = .idle) (ho : x.live.owner = none) (hf : x.live.fault = true) :
    MemberTaken u r x ((u.needNeutral r).updNeutral r fun k => { k with faulted := k.faulted + 1 })
  | settled (hm : x.live.move = .idle) (ho : x.live.owner = none) (hf : x.live.fault = false) (hr : atRest u x = true) :
    MemberTaken u r x ((u.needNeutral r).updNeutral r fun k => { k with settled := k.settled + 1 })
  | queued (hm : x.live.move = .idle) (ho : x.live.owner = none) (hr : atRest u x = false) : MemberTaken u r x ((u.needNeutral r).queueHigh x r)
  | taken (n : Nat) (ho : x.live.owner = some (.low n r)) (hm : x.live.move = .queued) : MemberTaken u r x ((u.needNeutral r).moveToHigh x r)
  | retargeted (n : Nat) (ho : x.live.owner = some (.low n r)) (hm : x.live.move = .moving) (hs : x.live.slot = some .low) :
    MemberTaken u r x ((u.needNeutral r).retarget x r)

theorem Core.memberTaken {s : State} (h : Core s) {r : Nat} {x : Turbine} (hx : x ∈ s.turbines) (hr : x.config.row = r)
    (hn : x.live.owner ≠ some (.neutral r)) : MemberTaken s r x (State.neutralMember r s x.node) := by
  unfold State.neutralMember
  rw [h.table.turbine?_of_mem hx]
  dsimp only
  cases ho : x.live.owner with
  | none =>
    obtain ⟨hm, hs⟩ := h.books.idle_of_unowned hx ho
    rw [hm, hs]
    dsimp only
    split
    · rename_i hf; exact .faulted hm ho hf
    · rename_i hf
      split
      · rename_i hset; exact .settled hm ho (by simpa using hf) (by rw [atRest_idle hm, hset]; simp)
      · rename_i hset; exact .queued hm ho (by rw [atRest_idle hm]; simp [hf, hset])
  | some o =>
    have hrow := (h.books.owners x hx o ho).1
    cases o with
    | neutral q => exact absurd ho (by rw [← hr, ← hrow] at hn; exact hn)
    | low n q =>
      obtain rfl : q = r := hrow.trans hr
      rcases Turbine.handled_iff.1 (h.books.handled x hx) with ⟨-, -, hn⟩ | ⟨o, ho', -, ⟨hm, hs⟩ | ⟨hm, hs⟩ | ⟨-, -, p, rfl⟩⟩
      · rw [ho] at hn; cases hn
      · have hlow : s.low.contains x.node = true := by
          have : x.node ∈ s.low := h.books.low.2.2 x hx (by simp [Turbine.waitsLow, hm, ho])
          simpa using this
        rw [hm, hs]
        dsimp only
        rw [if_pos hlow]
        exact .taken n ho hm
      · cases ho.symm.trans ho'
        rw [hm, hs]
        exact .retargeted n ho hm hs
      · cases ho.symm.trans ho'

/-! ### Several members -/

/-- A neutral step with counts added. -/
def NeutralStep.tallied (k : NeutralStep) (needed faulted settled : Nat) : NeutralStep :=
  { k with needed := k.needed + needed, faulted := k.faulted + faulted, settled := k.settled + settled }

theorem NeutralStep.tallied_tallied (k : NeutralStep) (a b c d e f : Nat) :
    (k.tallied a b c).tallied d e f = k.tallied (a + d) (b + e) (c + f) := by
  simp only [NeutralStep.tallied, Nat.add_assoc]

/-- The turbines of some nodes with a property. -/
def State.countOf (s : State) (l : List Nat) (p : Turbine → Bool) : Nat := s.turbines.countP fun x => l.contains x.node && p x

/-- The turbines of some nodes that wait for a retarget, and so lose their deadlines (R137). -/
def State.losesDeadline (s : State) (l : List Nat) (q : Requester) : Bool :=
  match q with
  | .deadline n => s.turbines.any fun x => x.node == n && l.contains x.node && x.moves
  | .hold _ _ => false

/-- A member that is counted faulted, and one that is counted settled (R154). -/
def Turbine.countsFaulted (x : Turbine) : Bool := x.live.move == .idle && x.live.fault
def countsSettled (s : State) (x : Turbine) : Bool := atRest s x && !x.live.fault

/-- A neutral step with the members of some nodes counted (R154). -/
def State.countIn (s : State) (l : List Nat) (k : NeutralStep) : NeutralStep :=
  k.tallied l.length (s.countOf l Turbine.countsFaulted) (s.countOf l (countsSettled s))

/-- A turbine once the members of some nodes are handled. -/
def State.drivenIn (s : State) (r : Nat) (l : List Nat) (x : Turbine) : Turbine :=
  if l.contains x.node && !atRest s x then { x with live := x.live.driven r } else x

/-- The turbine's owner is the LOW step. -/
def Turbine.ownedBy (n q : Nat) (x : Turbine) : Bool := x.live.owner == some (.low n q)

/-- What the release of a neutral step makes of the state with the members of some nodes (R154). -/
structure MembersTaken (r : Nat) (l : List Nat) (u t : State) : Prop where
  turbines : t.turbines = u.turbines.map (u.drivenIn r l)
  neutral : t.neutral = { u.neutral with steps := u.neutral.steps.map fun k => if k.row = r then u.countIn l k else k }
  steps : ∀ n q, t.step? n q = (u.step? n q).map fun a => { a with superseded := a.superseded + u.countOf l (Turbine.ownedBy n q) }
  divider : t.divider = withdrawn (u.losesDeadline l) u.divider
  params : t.params = u.params
  counters : t.counters = u.counters
  queueU : t.queueU = u.queueU

theorem countOf_nil (s : State) (p : Turbine → Bool) : s.countOf [] p = 0 := by simp [State.countOf]

theorem MembersTaken.nil (r : Nat) (u : State) : MembersTaken r [] u u where
  turbines := by
    refine ((List.map_congr_left fun x _ => ?_).trans (List.map_id' _)).symm
    simp [State.drivenIn]
  neutral := by
    have : (u.neutral.steps.map fun k => if k.row = r then u.countIn [] k else k) = u.neutral.steps := by
      refine (List.map_congr_left fun k _ => ?_).trans (List.map_id' _)
      split
      · simp [State.countIn, countOf_nil, NeutralStep.tallied]
      · rfl
    rw [this]
  steps n q := by simp [countOf_nil]
  divider := by
    have : u.losesDeadline [] = fun _ => false := by
      funext q
      cases q <;> simp [State.losesDeadline]
    rw [this, withdrawn_none]
  params := rfl
  counters := rfl
  queueU := rfl

section
variable {T : List Turbine} (hnd : (T.map fun t => t.node).Nodup) {x : Turbine} (hx : x ∈ T)
include hnd hx

/-- Counting one node's turbine. -/
theorem countP_node (p : Turbine → Bool) : (T.countP fun y => y.node == x.node && p y) = (p x).toNat := by
  induction T with
  | nil => cases hx
  | cons a l ih =>
    rw [List.map_cons, List.nodup_cons] at hnd
    rw [List.countP_cons]
    by_cases e : a.node = x.node
    · have hzero : (l.countP fun y => y.node == x.node && p y) = 0 := List.countP_eq_zero.2 fun y hy hc => by
        simp only [Bool.and_eq_true, beq_iff_eq] at hc
        exact hnd.1 (e ▸ hc.1 ▸ List.mem_map_of_mem hy)
      have hax : a = x := by
        rcases List.mem_cons.1 hx with rfl | hx
        · rfl
        · exact absurd (e ▸ List.mem_map_of_mem hx) hnd.1
      subst hax
      rw [hzero]
      cases p a <;> simp
    · have hxl : x ∈ l := (List.mem_cons.1 hx).resolve_left fun h => e (by rw [h])
      rw [ih hnd.2 hxl]
      simp [e]

end

theorem countOf_cons {s : State} (hnd : (s.turbines.map fun t => t.node).Nodup) {x : Turbine} (hx : x ∈ s.turbines) {l : List Nat}
    (hl : x.node ∉ l) (p : Turbine → Bool) : s.countOf (x.node :: l) p = (p x).toNat + s.countOf l p := by
  have hpt : ∀ a : Turbine, (if ((x.node :: l).contains a.node && p a) = true then 1 else 0) =
      (if (a.node == x.node && p a) = true then 1 else 0) + if (l.contains a.node && p a) = true then 1 else 0 := fun a => by
    by_cases e : a.node = x.node
    · have hc : l.contains x.node = false := by simpa using hl
      rw [List.contains_cons, e, hc]
      cases p a <;> simp
    · have hc : (a.node == x.node) = false := by simpa using e
      rw [List.contains_cons, hc]
      simp
  rw [← countP_node hnd hx p, State.countOf, State.countOf]
  clear hnd hx
  induction s.turbines with
  | nil => rfl
  | cons a T ih =>
    rw [List.countP_cons, List.countP_cons, List.countP_cons, ih, hpt]
    omega

/-- Counting at other nodes does not see a changed record. -/
theorem countOf_of_drivenIn {s t : State} {r : Nat} {l m : List Nat} (ht : t.turbines = s.turbines.map (s.drivenIn r l))
    (hd : ∀ n ∈ m, n ∉ l) (p : Turbine → Bool) : t.countOf m p = s.countOf m p := by
  rw [State.countOf, ht, List.countP_map]
  refine List.countP_congr fun x _ => ?_
  have hn : (s.drivenIn r l x).node = x.node := by unfold State.drivenIn; split <;> rfl
  simp only [Function.comp, hn]
  by_cases hm : x.node ∈ m
  · have : s.drivenIn r l x = x := by simp [State.drivenIn, hd _ hm]
    rw [this]
  · simp [hm]

/-- Members handled in two parts. -/
theorem MembersTaken.cons {u v t : State} (hnd : (u.turbines.map fun t => t.node).Nodup) {x : Turbine} (hx : x ∈ u.turbines) {r : Nat}
    {l : List Nat} (hl : x.node ∉ l) (h : MembersTaken r [x.node] u v) (k : MembersTaken r l v t) : MembersTaken r (x.node :: l) u t := by
  have hcount : ∀ p, v.countOf l p = u.countOf l p := countOf_of_drivenIn h.turbines fun n hn hc => hl (List.mem_singleton.1 hc ▸ hn)
  have hsplit : ∀ p, u.countOf (x.node :: l) p = u.countOf [x.node] p + u.countOf l p := fun p => by
    rw [countOf_cons hnd hx hl, countOf_cons hnd hx (l := []) (by simp), countOf_nil, Nat.add_zero]
  have hrest : ∀ y, atRest v y = atRest u y := atRest_congr h.params
  have hset : countsSettled v = countsSettled u := funext fun y => by simp only [countsSettled, hrest]
  refine ⟨?_, ?_, ?_, ?_, k.params.trans h.params, k.counters.trans h.counters, k.queueU.trans h.queueU⟩
  · rw [k.turbines, h.turbines, List.map_map]
    refine List.map_congr_left fun y _ => ?_
    simp only [Function.comp, State.drivenIn, hrest, List.contains_cons, List.contains_nil, Bool.or_false]
    by_cases e : y.node = x.node
    · rw [e]
      cases hr : atRest u y <;> simp [e, hr, hl]
    · have hc : (y.node == x.node) = false := by simpa using e
      simp [hc]
  · rw [k.neutral, h.neutral]
    simp only [List.map_map]
    congr 1
    refine List.map_congr_left fun y _ => ?_
    simp only [Function.comp]
    by_cases e : y.row = r
    · have hrow : (u.countIn [x.node] y).row = r := e
      rw [if_pos e, if_pos hrow, if_pos e]
      simp only [State.countIn, NeutralStep.tallied_tallied, hcount, hset, hsplit, List.length_cons, List.length_nil]
      congr 1
      omega
    · rw [if_neg e, if_neg e, if_neg e]
  · intro n q
    rw [k.steps, h.steps, Option.map_map, hcount, hsplit]
    congr 1
    funext a
    simp only [Function.comp, Nat.add_assoc]
  · rw [k.divider, h.divider, withdrawn_withdrawn]
    congr 1
    funext q
    cases q with
    | hold => rfl
    | deadline n =>
      have hv : v.losesDeadline l (.deadline n) = u.losesDeadline l (.deadline n) := by
        have hn : ∀ y, (u.drivenIn r [x.node] y).node = y.node := fun y => by unfold State.drivenIn; split <;> rfl
        simp only [State.losesDeadline, h.turbines, List.any_map]
        congr 1
        funext y
        simp only [Function.comp, hn]
        by_cases hm : y.node ∈ l
        · have : u.drivenIn r [x.node] y = y := by
            have : y.node ≠ x.node := fun e => hl (e ▸ hm)
            simp [State.drivenIn, this]
          rw [this]
        · simp [hm]
      rw [hv]
      simp only [State.losesDeadline]
      rw [Bool.eq_iff_iff]
      simp only [Bool.or_eq_true, List.any_eq_true, Bool.and_eq_true, List.contains_iff_mem, List.mem_cons, List.not_mem_nil, or_false]
      constructor
      · rintro (⟨y, hy, ⟨h1, h2⟩, h3⟩ | ⟨y, hy, ⟨h1, h2⟩, h3⟩)
        · exact ⟨y, hy, ⟨h1, .inl h2⟩, h3⟩
        · exact ⟨y, hy, ⟨h1, .inr h2⟩, h3⟩
      · rintro ⟨y, hy, ⟨h1, h2 | h2⟩, h3⟩
        · exact .inl ⟨y, hy, ⟨h1, h2⟩, h3⟩
        · exact .inr ⟨y, hy, ⟨h1, h2⟩, h3⟩

end Sys2Proof.Machine

/-! The members of a row, one after another (R154). -/

namespace Sys2Proof.Machine

section
variable {u : State} (hnd : (u.turbines.map fun t => t.node).Nodup) {x : Turbine} (hx : x ∈ u.turbines)
include hnd hx

theorem countOf_single (p : Turbine → Bool) : u.countOf [x.node] p = (p x).toNat := by
  rw [countOf_cons hnd hx (by simp), countOf_nil, Nat.add_zero]

theorem drivenIn_single (r : Nat) : u.turbines.map (u.drivenIn r [x.node]) =
    if atRest u x then u.turbines else relive x.node (Live.driven r) u.turbines := by
  have key : ∀ y ∈ u.turbines, u.drivenIn r [x.node] y =
      if atRest u x then y else if y.node = x.node then { y with live := y.live.driven r } else y := fun y hy => by
    by_cases e : y.node = x.node
    · obtain rfl := List.inj_on_of_nodup_map hnd hy hx e
      cases hr : atRest u y <;> simp [State.drivenIn, hr]
    · simp [State.drivenIn, e]
  rw [List.map_congr_left key]
  split
  · rw [List.map_id']
  · rfl

theorem losesDeadline_single : withdrawn (u.losesDeadline [x.node]) u.divider =
    if x.moves then u.divider.withdraw (.deadline x.node) else u.divider := by
  have key : u.losesDeadline [x.node] = fun q => x.moves && q == .deadline x.node := by
    funext q
    cases q with
    | hold => simp [State.losesDeadline]
    | deadline n =>
      rw [Bool.eq_iff_iff]
      simp only [State.losesDeadline, List.any_eq_true, Bool.and_eq_true, List.contains_iff_mem, List.mem_singleton, beq_iff_eq,
        Requester.deadline.injEq]
      constructor
      · rintro ⟨y, hy, ⟨h1, h2⟩, h3⟩
        obtain rfl := List.inj_on_of_nodup_map hnd hy hx h2
        exact ⟨h3, h1.symm⟩
      · rintro ⟨h1, rfl⟩
        exact ⟨x, hx, ⟨rfl, rfl⟩, h1⟩
  rw [key, Divider.withdraw_eq]
  cases x.moves with
  | false => simp
  | true => simp

end

/-- The neutral context with the steps at a row changed. -/
def Neutral.mapAt (n : Neutral) (r : Nat) (g : NeutralStep → NeutralStep) : Neutral :=
  { n with steps := n.steps.map fun k => if k.row = r then g k else k }

theorem Neutral.mapAt_mapAt (n : Neutral) (r : Nat) {f g h : NeutralStep → NeutralStep} (hf : ∀ k, (f k).row = k.row)
    (hg : ∀ k, g (f k) = h k) : (n.mapAt r f).mapAt r g = n.mapAt r h := by
  simp only [Neutral.mapAt, List.map_map]
  congr 1
  refine List.map_congr_left fun k _ => ?_
  by_cases e : k.row = r
  · simp [e, hf, hg]
  · simp [e]

theorem neutral_needNeutral (u : State) (r : Nat) : (u.needNeutral r).neutral = u.neutral.mapAt r fun k => k.tallied 1 0 0 := rfl

/-- A LOW step that counts a turbine superseded, found. -/
theorem step?_superseding (u : State) (n r m q : Nat) : (u.superseding n r).step? m q =
    (u.step? m q).map fun a => { a with superseded := a.superseded + (if m = n ∧ q = r then 1 else 0) } := by
  rw [State.superseding, State.step?_updStep u n r m q (g := fun x => { x with superseded := x.superseded + 1 }) fun _ => rfl]
  split
  · rfl
  · simp

theorem relive_congr {n : Nat} {g g' : Live → Live} {T : List Turbine} (h : ∀ y ∈ T, y.node = n → g y.live = g' y.live) :
    relive n g T = relive n g' T :=
  List.map_congr_left fun y hy => by
    by_cases e : y.node = n
    · rw [if_pos e, if_pos e, h y hy e]
    · rw [if_neg e, if_neg e]

theorem Live.driven_idle {r : Nat} {l : Live} (h : l.move ≠ .moving) : l.driven r = l.request (.neutral r) 0 := if_neg h

theorem Live.driven_queued {r : Nat} {l : Live} (h : l.move = .queued) : l.driven r = l.takenOver r := by
  rw [Live.driven_idle (by rw [h]; simp)]
  cases l
  subst h
  rfl

theorem Live.driven_moving {r : Nat} {l : Live} (h : l.move = .moving) : l.driven r = l.retargeted r := if_pos h

/-- A member QUEUED for a LOW step moves to the HIGH list, field by field. -/
theorem State.moveToHigh_fields (u : State) (r : Nat) {x : Turbine} {n : Nat} (ho : x.live.owner = some (.low n r)) :
    ((u.needNeutral r).moveToHigh x r).turbines = relive x.node (Live.takenOver r) u.turbines ∧
      ((u.needNeutral r).moveToHigh x r).neutral = (u.needNeutral r).neutral ∧
      ((u.needNeutral r).moveToHigh x r).waves = ((u.needNeutral r).superseding n r).waves ∧
      ((u.needNeutral r).moveToHigh x r).divider = u.divider ∧ ((u.needNeutral r).moveToHigh x r).params = u.params ∧
      ((u.needNeutral r).moveToHigh x r).counters = u.counters ∧ ((u.needNeutral r).moveToHigh x r).queueU = u.queueU := by
  have e : (u.needNeutral r).moveToHigh x r = { ((u.needNeutral r).superseding n r).updLive x.node (Live.takenOver r) with
        low := u.low.filter fun m => m != x.node, high := u.high ++ [x.node] } := by
    simp only [State.moveToHigh, State.supersede, ho]
    rfl
  rw [e]
  refine ⟨rfl, rfl, ?_⟩
  simp only [State.updLive, State.superseding, State.updStep, State.updWave, State.needNeutral, State.updNeutral, and_self]

/-- A retarget, in the fields that its books do not read. -/
theorem State.retarget_aside (u : State) (r : Nat) {x : Turbine} {n : Nat} (ho : x.live.owner = some (.low n r)) :
    ((u.needNeutral r).retarget x r).divider = u.divider.withdraw (.deadline x.node) ∧ ((u.needNeutral r).retarget x r).params = u.params ∧
      ((u.needNeutral r).retarget x r).counters = u.counters ∧ ((u.needNeutral r).retarget x r).queueU = u.queueU := by
  simp only [State.retarget, ho, State.supersede, State.shiftSlot, State.updLive, State.withdraw, State.updStep, State.updWave,
    State.needNeutral, State.updNeutral, and_self]

/-- One member, exactly. -/
theorem MemberTaken.single {u t : State} (hnd : (u.turbines.map fun t => t.node).Nodup) {x : Turbine} (hx : x ∈ u.turbines) {r : Nat}
    (h : MemberTaken u r x t) : MembersTaken r [x.node] u t := by
  have hc := fun p => countOf_single hnd hx p
  have hneutral : ∀ v : Neutral, v = u.neutral.mapAt r (fun k => k.tallied 1 x.countsFaulted.toNat (countsSettled u x).toNat) →
      v = u.neutral.mapAt r (u.countIn [x.node]) := fun v hv => by
    have : u.countIn [x.node] = fun k => k.tallied 1 x.countsFaulted.toNat (countsSettled u x).toNat := by
      funext k
      simp only [State.countIn, hc, List.length_singleton]
    rw [this]
    exact hv
  have hsame : x.live.owner = none → ∀ n q, u.step? n q =
      (u.step? n q).map fun a => { a with superseded := a.superseded + u.countOf [x.node] (Turbine.ownedBy n q) } := fun ho n q => by
    rw [hc]
    simp [Turbine.ownedBy, ho]
  have howned : ∀ w, x.live.owner = some (.low w r) → ∀ n q, ((u.needNeutral r).superseding w r).step? n q =
      (u.step? n q).map fun a => { a with superseded := a.superseded + u.countOf [x.node] (Turbine.ownedBy n q) } := fun w ho n q => by
    rw [hc, step?_superseding, step?_congr (s := u) (t := u.needNeutral r) rfl]
    congr 1
    funext a
    by_cases e : n = w ∧ q = r
    · simp [Turbine.ownedBy, ho, e]
    · have : x.ownedBy n q = false := by
        simp only [Turbine.ownedBy, ho, beq_eq_false_iff_ne, ne_eq, Option.some.injEq, Owner.low.injEq]
        exact fun h => e ⟨h.1.symm, h.2.symm⟩
      simp [this, e]
  have hstays : x.live.move ≠ .moving → withdrawn (u.losesDeadline [x.node]) u.divider = u.divider := fun hm => by
    have : x.moves = false := by
      unfold Turbine.moves
      rw [beq_eq_false_iff_ne.2 hm]
      rfl
    rw [losesDeadline_single hnd hx, this]
    rfl
  have hcounted : x.live.move ≠ .idle → (fun k : NeutralStep => k.tallied 1 x.countsFaulted.toNat (countsSettled u x).toNat) =
      fun k => k.tallied 1 0 0 := fun hm => by
    have h1 : x.countsFaulted = false := by
      unfold Turbine.countsFaulted
      rw [beq_eq_false_iff_ne.2 hm]
      rfl
    have h2 : countsSettled u x = false := by
      unfold countsSettled
      rw [not_atRest hm]
      rfl
    rw [h1, h2]
    rfl
  cases h with
  | faulted hm ho hf =>
    have hr : atRest u x = true := by rw [atRest_idle hm, hf]; rfl
    refine ⟨?_, hneutral _ ?_, hsame ho, (hstays (by simp [hm])).symm, rfl, rfl, rfl⟩
    · rw [drivenIn_single hnd hx, if_pos hr]; rfl
    · have h1 : x.countsFaulted = true := by simp [Turbine.countsFaulted, hm, hf]
      have h2 : countsSettled u x = false := by simp [countsSettled, hf]
      rw [h1, h2]
      exact Neutral.mapAt_mapAt u.neutral r (f := fun k => k.tallied 1 0 0) (g := fun k => { k with faulted := k.faulted + 1 })
        (fun _ => rfl) fun _ => rfl
  | settled hm ho hf hr =>
    refine ⟨?_, hneutral _ ?_, hsame ho, (hstays (by simp [hm])).symm, rfl, rfl, rfl⟩
    · rw [drivenIn_single hnd hx, if_pos hr]; rfl
    · have h1 : x.countsFaulted = false := by simp [Turbine.countsFaulted, hf]
      have h2 : countsSettled u x = true := by simp [countsSettled, hf, hr]
      rw [h1, h2]
      exact Neutral.mapAt_mapAt u.neutral r (f := fun k => k.tallied 1 0 0) (g := fun k => { k with settled := k.settled + 1 })
        (fun _ => rfl) fun _ => rfl
  | queued hm ho hr =>
    have hf : x.live.fault = false := by
      rw [atRest_idle hm] at hr
      exact (Bool.or_eq_false_iff.1 hr).1
    refine ⟨?_, hneutral _ ?_, hsame ho, (hstays (by simp [hm])).symm, rfl, rfl, rfl⟩
    · rw [drivenIn_single hnd hx, if_neg (by simp [hr])]
      exact relive_congr fun y hy e => by
        obtain rfl := List.inj_on_of_nodup_map hnd hy hx e
        exact (Live.driven_idle (r := r) (by simp [hm])).symm
    · have h1 : x.countsFaulted = false := by simp [Turbine.countsFaulted, hf]
      have h2 : countsSettled u x = false := by simp [countsSettled, hr]
      rw [h1, h2]
      exact neutral_needNeutral u r
  | taken n ho hm =>
    obtain ⟨f1, f2, f3, f4, f5, f6, f7⟩ := u.moveToHigh_fields r ho
    have hr : atRest u x = false := not_atRest (by simp [hm])
    refine ⟨?_, hneutral _ ?_, fun m q => ?_, f4.trans (hstays (by simp [hm])).symm, f5, f6, f7⟩
    · rw [drivenIn_single hnd hx, if_neg (by simp [hr]), f1]
      exact relive_congr fun y hy e => by
        obtain rfl := List.inj_on_of_nodup_map hnd hy hx e
        exact (Live.driven_queued hm).symm
    · rw [hcounted (by simp [hm]), f2]
      exact neutral_needNeutral u r
    · rw [← howned n ho, step?_congr f3]
  | retargeted n ho hm hs =>
    obtain ⟨-, -, -, f4, f5, f6, -⟩ := u.retarget_fields r ho
    obtain ⟨g1, g2, g3, g4⟩ := u.retarget_aside r ho
    have hr : atRest u x = false := not_atRest (by simp [hm])
    have hmv : x.moves = true := by simp [Turbine.moves, hm, hs]
    refine ⟨?_, hneutral _ ?_, fun m q => ?_, ?_, g2, g3, g4⟩
    · rw [drivenIn_single hnd hx, if_neg (by simp [hr]), f6]
      exact relive_congr fun y hy e => by
        obtain rfl := List.inj_on_of_nodup_map hnd hy hx e
        exact (Live.driven_moving hm).symm
    · rw [hcounted (by simp [hm]), f5]
      exact neutral_needNeutral u r
    · rw [← howned n ho, step?_congr f4]
    · rw [losesDeadline_single hnd hx, hmv, g1]
      rfl

/-! ### All members -/

theorem OnGain.membersTaken {s u : State} {r : Nat} {rest : List Nat} (hnd : rest.Nodup) (hin : ∀ n ∈ rest, ∃ x ∈ u.turbines, x.node = n)
    (h : OnGain s r rest u) : MembersTaken r rest u (rest.foldl (State.neutralMember r) u) := by
  induction rest generalizing u with
  | nil => exact .nil r u
  | cons node rest ih =>
    rw [List.nodup_cons] at hnd
    obtain ⟨x, hx, rfl⟩ := hin node List.mem_cons_self
    obtain ⟨hr, hn⟩ := h.todo x hx List.mem_cons_self
    have h1 := (h.core.memberTaken hx hr hn).single h.core.table.nodes_nodup hx
    refine h1.cons h.core.table.nodes_nodup hx hnd.1 (ih hnd.2 (fun n hm => ?_) (h.member hnd.1))
    obtain ⟨y, hy, rfl⟩ := hin n (List.mem_cons_of_mem _ hm)
    exact ⟨_, h1.turbines ▸ List.mem_map_of_mem hy, by unfold State.drivenIn; split <;> rfl⟩

end Sys2Proof.Machine

/-! What happens at one row: the steps of other rows stand or start, and the divider loses requests of the row and gains hold times elsewhere. -/

namespace Sys2Proof.Machine

/-! ### Successors under a change of steps -/

/-- The rows of a wave's steps, with those that are not EMPTY marked: what a successor's row is read from (R43). -/
def Wave.frame (w : Wave) : List (Nat × Bool) := w.steps.map fun st => (st.row, st.state != .empty)

theorem successor_row (w : Wave) (r : Nat) : (w.successor r).map (fun st => st.row) =
    if (w.frame.find? fun p => p.1 == r).any (fun p => p.2) then
      (((w.frame.dropWhile fun p => p.1 != r).tail).find? fun p => p.2).map fun p => p.1
    else none := by
  have hl : w.linked r = (w.frame.find? fun p => p.1 == r).any fun p => p.2 := by
    rw [Wave.linked, Wave.step?, Wave.frame, List.find?_map]
    cases h : w.steps.find? fun st => st.row == r <;> simp [h]
  rw [Wave.successor, hl]
  split
  · rw [stepsAfter, Wave.frame, List.dropWhile_map, ← List.map_tail, List.find?_map, Option.map_map]
    rfl
  · rfl

/-- A step stays EMPTY or not, does not come to wait, and stays ended. -/
structure Tracked (a b : WaveStep) : Prop where
  empty : b.state = .empty ↔ a.state = .empty
  waiting : b.state = .waiting → b = a
  live : b.state.terminal = false → a.state.terminal = false

theorem Tracked.refl (a : WaveStep) : Tracked a a := ⟨.rfl, fun _ => rfl, id⟩

theorem Tracked.trans {a b c : WaveStep} (h : Tracked a b) (k : Tracked b c) : Tracked a c where
  empty := k.empty.trans h.empty
  waiting e := by
    have := k.waiting e
    subst this
    exact h.waiting e
  live e := h.live (k.live e)

/-- A step that has not ended and is not EMPTY and not WAITING afterwards. -/
theorem Tracked.of_not {a b : WaveStep} (ha : a.state.terminal = false) (hb : b.state ≠ .empty) (hw : b.state ≠ .waiting) : Tracked a b :=
  ⟨⟨fun e => absurd e hb, fun e => by rw [e] at ha; cases ha⟩, fun e => absurd e hw, fun _ => ha⟩

/-- Steps that stay EMPTY or not, in waves that leave the queue at most. -/
structure Tracks (s t : State) : Prop where
  shaped : Shaped s t
  goes : Goes (fun _ _ => Tracked) s t

/-- The records of a later state stand in the earlier one, with the same rows and the same EMPTY steps. -/
theorem Tracks.wave {s t : State} (hs : WavesOk s) (ht : WavesOk t) (h : Tracks s t) {w' : Wave} (hw' : w' ∈ t.waves) :
    ∃ w ∈ s.waves, w.shape = w'.shape ∧ w.frame = w'.frame := by
  obtain ⟨w, hw, e⟩ := List.mem_map.1 (h.shaped.subset (List.mem_map_of_mem hw'))
  refine ⟨w, hw, e, ?_⟩
  simp only [Wave.shape, Prod.mk.injEq] at e
  obtain ⟨hn, -, hrows⟩ := e
  have key : ∀ {u : State} (hu : WavesOk u) {x : Wave} (hx : x ∈ u.waves),
      x.frame = (x.steps.map fun st => st.row).map fun r => (r, (u.step? x.num r).any fun st => st.state != .empty) := fun {u} hu {x} hx => by
    rw [List.map_map]
    refine List.map_congr_left fun st hst => ?_
    simp only [Function.comp, hu.step?_of_mem hx hst]
    rfl
  rw [key hs hw, key ht hw', hrows]
  refine List.map_congr_left fun r hr => ?_
  obtain ⟨st', hst', rfl⟩ := List.mem_map.1 hr
  obtain ⟨a, ha, ht'⟩ := h.goes.kept_from (ht.step?_of_mem hw' hst')
  rw [hn, ht.step?_of_mem hw' hst', ha]
  congr 1
  have := ht'.empty
  simp only [Option.any_some, bne]
  congr 1
  rw [Bool.eq_iff_iff]
  simpa using this.symm

theorem StartsAt.tracks {S : Nat → Prop} {s t : State} (hs : WavesOk s) (ht : WavesOk t) (h : Tracks s t) {n r : Nat} (k : StartsAt S s n r) :
    StartsAt S t n r := fun w' nxt' hw' hsucc' hwait => by
  obtain ⟨hm', rfl⟩ := State.wave?_mem hw'
  obtain ⟨w, hw, hshape, hframe⟩ := h.wave hs ht hm'
  simp only [Wave.shape, Prod.mk.injEq] at hshape
  have hrow := successor_row w r
  rw [hframe, ← successor_row w' r, hsucc'] at hrow
  obtain ⟨nxt, hsucc, hr⟩ := Option.map_eq_some_iff.1 hrow
  obtain ⟨a, ha, htr⟩ := h.goes.kept_from (ht.step?_of_mem hm' (Wave.successor_mem hsucc'))
  have hnxt := hs.step?_of_mem hw (Wave.successor_mem hsucc)
  rw [hshape.1, hr, ha] at hnxt
  have e1 := htr.waiting hwait
  have e2 := Option.some.inj hnxt
  have hr' : nxt.row = nxt'.row := hr
  rw [← hr']
  exact k w nxt (hshape.1 ▸ hs.wave?_of_mem hw) hsucc (by rw [← e2, ← e1]; exact hwait)

/-- The steps at a row that have not ended can start successors at rows of a kind only. -/
def Sets (S : Nat → Prop) (s : State) (r : Nat) : Prop := ∀ n a, s.step? n r = some a → a.state.terminal = false → StartsAt S s n r

theorem Sets.tracks {S : Nat → Prop} {s t : State} (hs : WavesOk s) (ht : WavesOk t) (h : Tracks s t) {r : Nat} (k : Sets S s r) : Sets S t r :=
  fun n b hb hl => by
    obtain ⟨a, ha, htr⟩ := h.goes.kept_from hb
    exact (k n a ha (htr.live hl)).tracks hs ht h

theorem sets_any (s : State) (r : Nat) : Sets AnyRow s r := fun n _ _ _ => startsAt_any s n r

/-! ### Changes at a row -/

/-- Steps at a row go as a relation says; elsewhere they stand, or start at rows of a kind. -/
def RowGoes (S : Nat → Prop) (r : Nat) (P : Nat → WaveStep → WaveStep → Prop) (n q : Nat) (a b : WaveStep) : Prop :=
  if q = r then P n a b else b = a ∨ (S q ∧ a.state = .waiting ∧ b = a.start)

theorem rowGoes_at {S : Nat → Prop} {r : Nat} {P : Nat → WaveStep → WaveStep → Prop} {n : Nat} {a b : WaveStep} :
    RowGoes S r P n r a b ↔ P n a b := by simp [RowGoes]

theorem rowGoes_off {S : Nat → Prop} {r q : Nat} (h : q ≠ r) {P : Nat → WaveStep → WaveStep → Prop} {n : Nat} {a b : WaveStep} :
    RowGoes S r P n q a b ↔ b = a ∨ (S q ∧ a.state = .waiting ∧ b = a.start) := by rw [RowGoes, if_neg h]

theorem RowGoes.trans {S : Nat → Prop} {r : Nat} {P Q R : Nat → WaveStep → WaveStep → Prop} {n q : Nat} {a b c : WaveStep}
    (hc : P n a b → Q n b c → R n a c) (h : RowGoes S r P n q a b) (k : RowGoes S r Q n q b c) : RowGoes S r R n q a c := by
  unfold RowGoes at *
  split
  · rename_i e; rw [if_pos e] at h k; exact hc h k
  · rename_i e
    rw [if_neg e] at h k
    rcases h with rfl | ⟨hS, hw, rfl⟩
    · exact k
    · rcases k with rfl | ⟨-, hw', -⟩
      · exact .inr ⟨hS, hw, rfl⟩
      · cases hw'

theorem RowGoes.of_ends {S : Nat → Prop} {n r : Nat} {f : WaveStep → WaveStep} {m q : Nat} {a b : WaveStep} (h : Ends S n r f m q a b) :
    RowGoes S r (fun m a b => b = if m = n then f a else a) m q a b := by
  by_cases e : q = r
  · subst e
    rw [rowGoes_at]
    by_cases hm : m = n
    · subst hm
      rw [if_pos rfl]
      exact ends_self.1 h
    · rw [if_neg hm]
      rcases (ends_ne fun c => hm c.1).1 h with h | ⟨c, -⟩
      · exact h
      · exact absurd c hm
  · rw [rowGoes_off e]
    rcases (ends_ne fun c => e c.2).1 h with h | ⟨-, h⟩
    · exact .inl h
    · exact .inr h

theorem RowGoes.tracked {S : Nat → Prop} {r : Nat} {P : Nat → WaveStep → WaveStep → Prop} (hP : ∀ {n a b}, P n a b → Tracked a b) {n q : Nat}
    {a b : WaveStep} (h : RowGoes S r P n q a b) : Tracked a b := by
  by_cases e : q = r
  · subst e; exact hP (rowGoes_at.1 h)
  · rcases (rowGoes_off e).1 h with rfl | ⟨-, hw, rfl⟩
    · exact .refl _
    · exact .of_not (by rw [hw]; rfl) (by simp [WaveStep.start]) (by simp [WaveStep.start])

/-- A hold time that is awaited elsewhere goes on being awaited. -/
theorem AwaitsAt.rowGoes {S : Nat → Prop} {r : Nat} {P : Nat → WaveStep → WaveStep → Prop} {s t : State} (h : Goes (RowGoes S r P) s t)
    {n q : Nat} (hq : q ≠ r) (ha : AwaitsAt s n q) : AwaitsAt t n q := by
  obtain ⟨st, hst, haw⟩ := ha
  have hg := h n q
  rw [hst] at hg
  have hstand : ∀ b, RowGoes S r P n q st b → b = st := fun b hb => by
    rcases (rowGoes_off hq).1 hb with e | ⟨-, hw, -⟩
    · exact e
    · rw [haw.state] at hw; cases hw
  generalize ht : t.step? n q = y at hg
  cases hg with
  | left l e =>
    rw [hstand _ l, haw.state] at e
    cases e
  | kept l => exact ⟨_, ht, hstand _ l ▸ haw⟩

/-! ### The divider -/

/-- Nothing waits for an idle service stage (R106). -/
def Divider.Sane (d : Divider) : Prop := d.stage = none → d.list = []

theorem Divider.Sane.place {d : Divider} (h : d.Sane) (e : DivEntry) : (d.place e).Sane := by
  rcases d.place_cases e with ⟨-, -, hp⟩ | ⟨hd, hp⟩ <;> rw [hp]
  · intro hs; cases hs
  · intro hs
    rcases hd with hd | hd
    · exact absurd hs hd
    · exact absurd (h hs) hd

theorem Divider.Sane.withdrawn {d : Divider} (h : d.Sane) (g : Requester → Bool) : (withdrawn g d).Sane := fun hs => by
  simp only [Machine.withdrawn, Option.map_eq_none_iff] at hs ⊢
  rw [h hs]
  rfl

theorem withdrawn_place {d : Divider} (h : d.Sane) {g : Requester → Bool} {e : DivEntry} (he : g e.requester = false) :
    withdrawn g (d.place e) = (withdrawn g d).place e := by
  obtain ⟨l, st⟩ := d
  cases st with
  | none =>
    have hl : l = [] := h rfl
    subst hl
    simp [Divider.place, withdrawn, he]
  | some v => simp [Divider.place, withdrawn, he]

theorem withdrawn_placed {g : Requester → Bool} (placed : List DivEntry) {d : Divider} (h : d.Sane) (hg : ∀ e ∈ placed, g e.requester = false) :
    withdrawn g (placed.foldl Divider.place d) = placed.foldl Divider.place (withdrawn g d) := by
  induction placed generalizing d with
  | nil => rfl
  | cons e l ih =>
    rw [List.foldl_cons, List.foldl_cons, ih (h.place e) fun x hx => hg x (List.mem_cons_of_mem _ hx),
      withdrawn_place h (hg e List.mem_cons_self)]

/-- The divider has the requests of some requesters withdrawn, and behind them hold times placed, awaited at rows of a kind. -/
def Edits (S : Nat → Prop) (gone : Requester → Bool) (s t : State) : Prop :=
  ∃ placed : List DivEntry, t.divider = placed.foldl Divider.place (withdrawn gone s.divider) ∧
    ∀ e ∈ placed, ∃ n q, e.requester = .hold n q ∧ S q ∧ AwaitsAt t n q

theorem Edits.of_withdrawn {S : Nat → Prop} {gone : Requester → Bool} {s t : State} (h : t.divider = withdrawn gone s.divider) :
    Edits S gone s t := ⟨[], h, by simp⟩

theorem Edits.trans {S : Nat → Prop} {r : Nat} {P : Nat → WaveStep → WaveStep → Prop} {f g : Requester → Bool} {s t u : State}
    (h : Edits S f s t) (k : Edits S g t u) (hd : s.divider.Sane) (hr : ¬S r) (hg : Goes (RowGoes S r P) t u)
    (hS : ∀ n q, S q → g (.hold n q) = false) : Edits S (fun q => f q || g q) s u := by
  obtain ⟨p, hp, op⟩ := h
  obtain ⟨p', hp', op'⟩ := k
  refine ⟨p ++ p', ?_, fun e he => ?_⟩
  · rw [hp', hp, withdrawn_placed p (hd.withdrawn f), withdrawn_withdrawn, List.foldl_append]
    intro e he
    obtain ⟨n, q, hq, hSq, -⟩ := op e he
    rw [hq]
    exact hS n q hSq
  · rcases List.mem_append.1 he with he | he
    · obtain ⟨n, q, hq, hSq, ha⟩ := op e he
      exact ⟨n, q, hq, hSq, ha.rowGoes hg fun e => hr (e ▸ hSq)⟩
    · exact op' e he

theorem Divider.Sane.placed (placed : List DivEntry) {d : Divider} (h : d.Sane) : (placed.foldl Divider.place d).Sane := by
  induction placed generalizing d with
  | nil => exact h
  | cons e l ih => exact ih (h.place e)

/-- The divider stays sane over withdrawals and requests. -/
theorem Edits.sane {S : Nat → Prop} {g : Requester → Bool} {s t : State} (h : Edits S g s t) (hd : s.divider.Sane) : t.divider.Sane := by
  obtain ⟨p, hp, -⟩ := h
  rw [hp]
  exact (hd.withdrawn g).placed p

end Sys2Proof.Machine

/-! Changes at a row, put together: what several waves' steps at the row become, one after another. -/

namespace Sys2Proof.Machine

/-! ### One change after another -/

/-- A change at a row: what its steps become, and the requests of the row that the divider loses. -/
structure RowChange (S : Nat → Prop) (r : Nat) (P : Nat → WaveStep → WaveStep → Prop) (gone : Requester → Bool) (s t : State) : Prop where
  waves : WavesOk t
  shaped : Shaped s t
  goes : Goes (RowGoes S r P) s t
  off : ∀ n q, q ≠ r → gone (.hold n q) = false
  edits : ¬S r → Unforced s → s.divider.Sane → Edits S gone s t

/-- What is left alone is allowed to what leaves steps alone. -/
theorem rowGoes_refl {S : Nat → Prop} {r : Nat} {P : Nat → WaveStep → WaveStep → Prop} {n q : Nat} {a : WaveStep} (h : q = r → P n a a) :
    RowGoes S r P n q a a := by
  by_cases e : q = r
  · rw [RowGoes, if_pos e]; exact h e
  · exact (rowGoes_off e).2 (.inl rfl)

/-- A relation may use what the earlier state finds. -/
theorem Goes.of_found {Q R : Nat → Nat → WaveStep → WaveStep → Prop} {s t : State} (h : Goes Q s t)
    (hc : ∀ n r a b, s.step? n r = some a → Q n r a b → R n r a b) : Goes R s t := fun n r => by
  have hn := h n r
  have hcn := hc n r
  generalize s.step? n r = x at *
  generalize t.step? n r = y at *
  cases hn with
  | absent => exact .absent
  | left h e => exact .left (hcn _ _ rfl h) e
  | kept h => exact .kept (hcn _ _ rfl h)

theorem Unforced.tracked {Q : Nat → Nat → WaveStep → WaveStep → Prop} {s t : State} (h : Goes Q s t)
    (hQ : ∀ n r a b, Q n r a b → b.state = .waiting → b = a) (hu : Unforced s) : Unforced t := fun n r b hb hw => by
  obtain ⟨a, ha, l⟩ := h.kept_from hb
  have := hQ n r a b l hw
  subst this
  exact hu n r _ ha hw

/-- A relation of the steps at a row that keeps track of them. -/
def Keeping (r : Nat) (P : Nat → WaveStep → WaveStep → Prop) (s : State) : Prop := ∀ n a b, s.step? n r = some a → P n a b → Tracked a b

section
variable {S : Nat → Prop} {r : Nat} {P Q R : Nat → WaveStep → WaveStep → Prop} {f g : Requester → Bool} {s t u : State}

theorem RowChange.mono (h : RowChange S r P f s t) (hc : ∀ n a b, s.step? n r = some a → P n a b → Q n a b) (e : ∀ q, f q = g q) :
    RowChange S r Q g s t := by
  obtain rfl : f = g := funext e
  refine ⟨h.waves, h.shaped, h.goes.of_found fun n q a b ha hp => ?_, h.off, h.edits⟩
  by_cases e : q = r
  · subst e
    exact rowGoes_at.2 (hc n a b ha (rowGoes_at.1 hp))
  · exact (rowGoes_off e).2 ((rowGoes_off e).1 hp)

theorem RowChange.tracks (h : RowChange S r P f s t) (hP : Keeping r P s) : Tracks s t := by
  refine ⟨h.shaped, h.goes.of_found fun n q a b ha hp => ?_⟩
  by_cases e : q = r
  · subst e
    exact hP n a b ha (rowGoes_at.1 hp)
  · exact RowGoes.tracked (n := n) (r := r) (P := fun _ a b => b = a) (fun e => e ▸ .refl _) ((rowGoes_off e).2 ((rowGoes_off e).1 hp))

/-- Two changes at the same row. -/
theorem RowChange.trans (h : RowChange S r P f s t) (k : RowChange S r Q g t u) (hP : Keeping r P s)
    (hr : ∀ n b, b.state.terminal = true → t.step? n r = none → Q n b b) (hc : ∀ n a b c, P n a b → Q n b c → R n a c) :
    RowChange S r R (fun q => f q || g q) s u where
  waves := k.waves
  shaped := h.shaped.trans k.shaped
  goes := fun n q => by
    have hn := h.goes n q
    have kn := k.goes n q
    have hrn : ∀ b, b.state.terminal = true → t.step? n q = none → RowGoes S r Q n q b b :=
      fun b ha ht => rowGoes_refl fun e => by subst e; exact hr n b ha ht
    generalize s.step? n q = x at *
    generalize t.step? n q = y at *
    generalize u.step? n q = z at *
    cases hn with
    | absent => cases kn; exact .absent
    | left h e => cases kn; exact .left (h.trans (hc n _ _ _) (hrn _ e rfl)) e
    | kept h =>
      cases kn with
      | left k e => exact .left (h.trans (hc n _ _ _) k) e
      | kept k => exact .kept (h.trans (hc n _ _ _) k)
  off n q e := by rw [h.off n q e, k.off n q e]; rfl
  edits hS hu hd := by
    have h1 := h.edits hS hu hd
    have hu1 : Unforced t := hu.tracked (h.tracks hP).goes fun _ _ _ _ e => e.waiting
    exact h1.trans (k.edits hS hu1 (h1.sane hd)) hd hS k.goes fun n q hq => k.off n q fun e => hS (e ▸ hq)

end

/-- A change that the steps and the divider do not see. -/
theorem RowChange.of_same {S : Nat → Prop} {r : Nat} {s t : State} (h : WavesOk t) (hw : t.waves = s.waves) (hd : t.divider = s.divider) :
    RowChange S r (fun _ a b => b = a) (fun _ => false) s t where
  waves := h
  shaped := Shaped.of_waves hw
  goes := .of_waves (fun _ _ _ => rowGoes_refl fun _ => rfl) hw
  off _ _ _ := rfl
  edits _ _ _ := .of_withdrawn (by rw [hd, withdrawn_none])

/-- Completion does not touch the steps that stand, and not the divider (R71). -/
theorem rowChange_completeWaves {S : Nat → Prop} (r : Nat) {s : State} (h : WavesOk s) :
    RowChange S r (fun _ a b => b = a) (fun _ => false) s s.completeWaves where
  waves := (Settling.completeWaves h).wavesOk h
  shaped := (Settling.completeWaves h).shaped
  goes := goes_completeWaves (fun _ _ _ => rowGoes_refl fun _ => rfl) h
  off _ _ _ := rfl
  edits _ _ _ := .of_withdrawn (by rw [(completeWaves_aside s).1, withdrawn_none])

/-! ### The steps of several waves at a row -/

/-- The steps of some waves change by a function. -/
def Among (l : List Nat) (g : WaveStep → WaveStep) (n : Nat) (a b : WaveStep) : Prop := b = if n ∈ l then g a else a

/-- The hold times of the steps of some waves at a row that a test picks. -/
def State.holdsOf (s : State) (r : Nat) (l : List Nat) (p : WaveStep → Bool) (q : Requester) : Bool :=
  match q with
  | .hold n m => m == r && l.contains n && (s.step? n m).any p
  | .deadline _ => false

theorem rowChange_nil {S : Nat → Prop} {r : Nat} {g : WaveStep → WaveStep} {p : WaveStep → Bool} {s : State} (h : WavesOk s) :
    RowChange S r (Among [] g) (s.holdsOf r [] p) s s :=
  (RowChange.of_same h rfl rfl).mono (fun _ _ _ _ e => by simpa [Among] using e) fun q => by cases q <;> simp [State.holdsOf]

section
variable {S : Nat → Prop} {r : Nat} {f : State → Nat → State} {g : WaveStep → WaveStep} {p : WaveStep → Bool} {live : WaveStep → Prop}
  (hlive : ∀ a, live a → a.state.terminal = false)
  (hg : ∀ a, live a → Tracked a (g a))
  (hf : ∀ u n, WavesOk u → Sets S u r → (∃ a, u.step? n r = some a ∧ live a) →
    RowChange S r (Among [n] g) (u.holdsOf r [n] p) u (f u n))
include hlive hg hf

/-- Several waves' steps change at a row, one after another. -/
theorem rowChange_fold {l : List Nat} (hnd : l.Nodup) {s : State} (h : WavesOk s) (hS : Sets S s r)
    (hl : ∀ n ∈ l, ∃ a, s.step? n r = some a ∧ live a) : RowChange S r (Among l g) (s.holdsOf r l p) s (l.foldl f s) := by
  induction l generalizing s with
  | nil => exact rowChange_nil h
  | cons n l ih =>
    rw [List.nodup_cons] at hnd
    have h1 := hf s n h hS (hl n List.mem_cons_self)
    have hkeep : Keeping r (Among [n] g) s := fun m a b ha hp => by
      by_cases e : m ∈ [n]
      · rw [Among, if_pos e] at hp
        obtain rfl := List.mem_singleton.1 e
        obtain ⟨a', ha', hla⟩ := hl m List.mem_cons_self
        cases ha.symm.trans ha'
        exact hp ▸ hg a hla
      · rw [Among, if_neg e] at hp
        exact hp ▸ .refl _
    have hstand : ∀ m ∈ l, ∃ a, s.step? m r = some a ∧ live a ∧ (f s n).step? m r = some a := fun m hm => by
      obtain ⟨a, ha, hla⟩ := hl m (List.mem_cons_of_mem _ hm)
      have hmn : m ∉ [n] := fun e => hnd.1 (List.mem_singleton.1 e ▸ hm)
      have hgo := h1.goes m r
      rw [ha] at hgo
      have hsame : ∀ b, RowGoes S r (Among [n] g) m r a b → b = a := fun b hb => by
        have := rowGoes_at.1 hb
        rwa [Among, if_neg hmn] at this
      generalize ht : (f s n).step? m r = y at hgo
      cases hgo with
      | left h e => rw [hsame _ h, hlive a hla] at e; cases e
      | kept h => exact ⟨a, ha, hla, by rw [hsame _ h]⟩
    have ht := h1.tracks hkeep
    have h2 := ih hnd.2 h1.waves (hS.tracks h h1.waves ht) fun m hm => by
      obtain ⟨a, -, hla, ha⟩ := hstand m hm
      exact ⟨a, ha, hla⟩
    refine (h1.trans h2 (R := Among (n :: l) g) hkeep (fun m b _ hn => ?_) fun m a b c hp hq => ?_).mono (fun _ _ _ _ e => e) fun q => ?_
    · rw [Among, if_neg fun hm => ?_]
      obtain ⟨a, -, -, e⟩ := hstand m hm
      rw [hn] at e
      cases e
    · unfold Among at *
      by_cases e : m = n
      · subst e
        rw [if_pos List.mem_cons_self, hq, if_neg hnd.1, hp, if_pos (List.mem_singleton.2 rfl)]
      · rw [if_neg fun hm => e (List.mem_singleton.1 hm)] at hp
        rw [hq, hp]
        by_cases hm : m ∈ l
        · rw [if_pos hm, if_pos (List.mem_cons_of_mem _ hm)]
        · rw [if_neg hm, if_neg fun hc => (List.mem_cons.1 hc).elim e hm]
    · cases q with
      | deadline => rfl
      | hold m k =>
        simp only [State.holdsOf]
        by_cases hk : k = r
        · subst hk
          by_cases hm : m ∈ l
          · obtain ⟨a, ha, -, hb⟩ := hstand m hm
            simp [ha, hb, hm]
          · simp [hm, eq_comm]
        · have hb : (k == r) = false := beq_eq_false_iff_ne.2 hk
          simp [hb]

end

/-! ### A trigger's request -/

theorem edits_trigger {S : Nat → Prop} {s : State} (h : WavesOk s) (hu : Unforced s) {n r : Nat} (hS : StartsAt S s n r) :
    Edits S (fun _ => false) s (s.trigger n r) := by
  rcases s.trigger_cases h n r with ⟨e, -⟩ | ⟨w, nxt, hw, hs, hwait, e⟩
  · rw [e]
    exact .of_withdrawn (withdrawn_none _).symm
  · have hplace := hS w nxt hw hs hwait
    obtain ⟨hm, rfl⟩ := State.wave?_mem hw
    have hst := h.step?_of_mem hm (Wave.successor_mem hs)
    rw [e]
    refine ⟨[s.startRequest w nxt], by rw [withdrawn_none]; rfl, fun x hx => ?_⟩
    rw [List.mem_singleton.1 hx]
    refine ⟨w.num, nxt.row, rfl, hplace, nxt.start, ?_, ⟨rfl, rfl, rfl, (hu _ _ _ hst hwait :)⟩⟩
    change (s.updStep w.num nxt.row WaveStep.start).step? w.num nxt.row = _
    rw [State.step?_updStep s w.num nxt.row w.num nxt.row (g := WaveStep.start) fun _ => rfl, hst, if_pos ⟨rfl, rfl⟩]
    rfl

/-- A later state that keeps the awaited hold times and the divider. -/
theorem Edits.later {S : Nat → Prop} {g : Requester → Bool} {s t u : State} (h : Edits S g s t) (hd : u.divider = t.divider)
    (ha : ∀ n q, AwaitsAt t n q → AwaitsAt u n q) : Edits S g s u := by
  obtain ⟨p, hp, op⟩ := h
  exact ⟨p, hd.trans hp, fun e he => by
    obtain ⟨n, q, hq, hS, hw⟩ := op e he
    exact ⟨n, q, hq, hS, ha n q hw⟩⟩

/-- Steps that stand go on awaiting their hold times. -/
theorem AwaitsAt.stands {s t : State} (h : Goes (fun _ _ a b => b = a) s t) {n q : Nat} (ha : AwaitsAt s n q) : AwaitsAt t n q :=
  ha.goes (h.mono fun e => e ▸ Late.refl _)

/-- A count and a notice, and completion behind them. -/
theorem Edits.said {S : Nat → Prop} {g : Requester → Bool} {s u : State} (h : Edits S g s u) (hw : WavesOk u) {f : Counters → Counters}
    {x : Notice} : Edits S g s ((u.tally f).notify x).completeWaves := by
  have hw1 : WavesOk ((u.tally f).notify x) := hw
  have h1 : Edits S g s ((u.tally f).notify x) := h.later rfl fun _ _ ha => ha
  exact h1.later (completeWaves_aside _).1 fun m q ha => ha.stands (goes_completeWaves (Q := fun _ _ a b => b = a) (fun _ _ _ => rfl) hw1)

/-! ### Skipping -/

theorem divider_dropHold {s : State} {n r : Nat} {st : WaveStep} (h : s.step? n r = some st) :
    (s.dropHold n r).divider = withdrawn (fun q => st.cmpA == .pending && q == .hold n r) s.divider := by
  by_cases hp : st.cmpA = .pending
  · rw [State.dropHold_of_pending h hp]
    change s.divider.withdraw _ = _
    rw [Divider.withdraw_eq]
    simp [hp]
  · rw [State.dropHold_of_not_pending h hp]
    have : (st.cmpA == .pending) = false := by simpa using hp
    simp only [this, Bool.false_and, withdrawn_none]

theorem goes_skipped (s : State) (n r : Nat) : Goes (fun m q a b => b = if m = n ∧ q = r then a.skip else a) s (s.skipped n r) := by
  refine (goes_dropHold s n r).trans (goes_updStep (s.dropHold n r) n r
    (g := fun x => { x with state := .skipped, owesTest := false, owesDeadline := false }) fun _ => rfl) (fun m q a hs hn => ?_)
    fun {m q a b c} e k => ?_
  · rw [step?_dropHold] at hn
    split at hn
    · exact absurd (Option.map_eq_none_iff.1 hn) hs
    · exact absurd hn hs
  · rw [k, e]
    split <;> rfl

theorem Tracked.skip {a : WaveStep} (h : a.state.unreleased) : Tracked a a.skip := by
  have ha : a.state.terminal = false := by rcases h with h | h <;> rw [h] <;> rfl
  exact .of_not ha (by simp [WaveStep.skip]) (by simp [WaveStep.skip])

theorem tracks_skipped {s : State} {n r : Nat} {st : WaveStep} (hst : s.step? n r = some st) (hu : st.state.unreleased) :
    Tracks s (s.skipped n r) := by
  refine ⟨(Settling.dropHold s n r).shaped.trans (Shaped.updStep _ n r fun _ => rfl), (goes_skipped s n r).of_found fun m q a b ha e => ?_⟩
  by_cases c : m = n ∧ q = r
  · obtain ⟨rfl, rfl⟩ := c
    cases hst.symm.trans ha
    rw [e, if_pos ⟨rfl, rfl⟩]
    exact .skip hu
  · rw [e, if_neg c]
    exact .refl _

/-- One step is skipped (R87). -/
theorem rowChange_skipStep {S : Nat → Prop} {s : State} (h : WavesOk s) {n r : Nat} (hS : Sets S s r)
    (hl : ∃ a, s.step? n r = some a ∧ a.state.unreleased) (x : SkipReason) :
    RowChange S r (Among [n] WaveStep.skip) (s.holdsOf r [n] fun a => a.cmpA == .pending) s (s.skipStep n r x) := by
  obtain ⟨st, hst, hun⟩ := hl
  have ht := tracks_skipped hst hun
  have hok := wavesOk_skipped h n r
  have hS1 := (hS n st hst (by rcases hun with e | e <;> rw [e] <;> rfl)).tracks h hok ht
  have hb : ¬Busy (s.account (.low n r)) := Settling.not_busy_of_unreleased fun a ha => by cases hst.symm.trans ha; exact hun
  have hset := Settling.skipStep h hb x
  refine ⟨hset.wavesOk h, hset.shaped, (goes_skipStep h hS1 x).mono fun {m q a b} e => ?_, fun m q e => by simp [State.holdsOf, e],
    fun hSr hu hd => ?_⟩
  · refine RowGoes.trans (P := fun m a b => b = if m = n then a.skip else a) (Q := fun _ a b => b = a) (fun e k => ?_) (.of_ends e)
      (rowGoes_refl fun _ => rfl)
    rw [k, Among, e]
    simp only [List.mem_singleton]
  · have h1 : Edits S (fun q => st.cmpA == .pending && q == .hold n r) s (s.skipped n r) := .of_withdrawn (divider_dropHold hst)
    have h2 := edits_trigger hok (hu.tracked ht.goes fun _ _ _ _ e => e.waiting) hS1
    have hgo : Goes (RowGoes S r fun _ a b => b = a) (s.skipped n r) (s.skipping n r) := (goes_trigger hok hS1).mono fun {m q a b} e => by
      rcases e with rfl | ⟨-, hq, hw, rfl⟩
      · exact rowGoes_refl fun _ => rfl
      · exact (rowGoes_off fun (c : q = r) => hSr (c ▸ hq)).2 (.inr ⟨hq, hw, rfl⟩)
    have h3 := h1.trans h2 hd hSr hgo fun _ _ _ => rfl
    have h4 : Edits S (fun q => st.cmpA == .pending && q == .hold n r || false) s (s.skipStep n r x) := by
      rw [State.skipStep_eq]
      exact h3.said (wavesOk_skipping h n r)
    have e : (fun q => st.cmpA == .pending && q == .hold n r || false) = s.holdsOf r [n] fun a => a.cmpA == .pending := by
      funext q
      cases q with
      | deadline => simp [State.holdsOf]
      | hold m k =>
        by_cases c : m = n ∧ k = r
        · obtain ⟨rfl, rfl⟩ := c
          simp [State.holdsOf, hst]
        · have : ((Requester.hold m k) == .hold n r) = false := by simpa using c
          rw [this]
          simp only [State.holdsOf, List.contains_cons, List.contains_nil, Bool.or_false, Bool.and_false]
          by_cases hk : k = r
          · have hm : m ≠ n := fun e => c ⟨e, hk⟩
            simp [hm]
          · simp [hk]
    exact e ▸ h4

end Sys2Proof.Machine

/-! A gain at a row, in its three parts: the steps there that are skipped, the members that are driven, the steps that enter DONE (R99, R100). -/

namespace Sys2Proof.Machine

/-! ### The waves with a step at a row in some states -/

/-- The numbers of the RUNNING waves with a step at a row in some states, oldest wave first. -/
def State.wavesAt (s : State) (r : Nat) (p : StepState → Bool) : List Nat :=
  (s.waves.filter fun w => w.running && w.steps.any fun st => st.row == r && p st.state).map fun w => w.num

theorem mem_wavesAt {s : State} (h : WavesOk s) {r n : Nat} {p : StepState → Bool} :
    n ∈ s.wavesAt r p ↔ ∃ st, s.step? n r = some st ∧ p st.state = true := by
  simp only [State.wavesAt, List.mem_map, List.mem_filter, Bool.and_eq_true, List.any_eq_true, beq_iff_eq]
  constructor
  · rintro ⟨w, ⟨hw, -, st, hst, rfl, hp⟩, rfl⟩
    exact ⟨st, h.step?_of_mem hw hst, hp⟩
  · rintro ⟨st, hst, hp⟩
    obtain ⟨w, hw, hn, hm, hr⟩ := State.step?_mem hst
    refine ⟨w, ⟨hw, ?_, st, hm, hr, hp⟩, hn⟩
    cases hrun : w.running with
    | true => rfl
    | false =>
      rw [(h.2.2.2.2.2.2 w hw).2.2 hrun] at hm
      cases hm

theorem wavesAt_nodup {s : State} (h : WavesOk s) (r : Nat) (p : StepState → Bool) : (s.wavesAt r p).Nodup :=
  h.nums_nodup.sublist (List.filter_sublist.map _)

/-- WAITING or HOLDING (R97), and RELEASING or MOVING (R100), as tests. -/
def StepState.waits (x : StepState) : Bool := x == .waiting || x == .holding
def StepState.moves (x : StepState) : Bool := x == .releasing || x == .moving

theorem StepState.waits_iff (x : StepState) : x.waits = true ↔ x.unreleased := by
  simp [StepState.waits, StepState.unreleased]

theorem StepState.moves_iff (x : StepState) : x.moves = true ↔ x.active := by
  simp [StepState.moves, StepState.active]

theorem State.unreleasedAt_eq (s : State) (r : Nat) : s.unreleasedAt r = s.wavesAt r StepState.waits := rfl

theorem State.releasedAt_eq (s : State) (r : Nat) : s.releasedAt r = s.wavesAt r StepState.moves := rfl

/-! ### The steps that are skipped -/

/-- A step of a row whose unreleased steps are skipped. -/
def WaveStep.skipDue (a : WaveStep) : WaveStep := if a.state.waits then a.skip else a

/-- The pending hold times of the unreleased steps at a row. -/
def State.skipHolds (s : State) (r : Nat) (q : Requester) : Bool :=
  match q with
  | .hold n m => m == r && (s.step? n m).any fun a => a.state.waits && a.cmpA == .pending
  | .deadline _ => false

theorem rowChange_skipAt {S : Nat → Prop} {s : State} (h : WavesOk s) {r : Nat} (hS : Sets S s r) (x : SkipReason) :
    RowChange S r (fun _ a b => b = a.skipDue) (s.skipHolds r) s (s.skipAt r x) := by
  have hmem : ∀ n, n ∈ s.wavesAt r StepState.waits ↔ ∃ st, s.step? n r = some st ∧ st.state.waits = true :=
    fun n => mem_wavesAt h
  have hfold := rowChange_fold (l := s.wavesAt r StepState.waits) (f := fun s n => s.skipStep n r x) (p := fun a => a.cmpA == .pending) (g := WaveStep.skip)
    (live := fun a => a.state.unreleased) (fun a ha => by rcases ha with e | e <;> rw [e] <;> rfl) (fun a ha => .skip ha)
    (fun u n hu hSu hl => rowChange_skipStep hu hSu hl x) (wavesAt_nodup h r _) h hS fun n hn => by
      obtain ⟨st, hst, hp⟩ := (hmem n).1 hn
      exact ⟨st, hst, (StepState.waits_iff _).1 hp⟩
  refine hfold.mono (fun n a b ha e => ?_) fun q => ?_
  · rw [e, WaveStep.skipDue]
    have : n ∈ s.wavesAt r StepState.waits ↔ a.state.waits = true := by simp [hmem, ha]
    by_cases c : a.state.waits = true
    · rw [if_pos c, if_pos (this.2 c)]
    · rw [if_neg c, if_neg fun hn => c (this.1 hn)]
  · cases q with
    | deadline => rfl
    | hold n m =>
      simp only [State.holdsOf, State.skipHolds]
      by_cases hm : m = r
      · subst hm
        cases hst : s.step? n m with
        | none => simp
        | some a =>
          have : (s.wavesAt m StepState.waits).contains n = a.state.waits := by
            rw [Bool.eq_iff_iff]
            simp [mem_wavesAt h, hst]
          rw [this]
          simp
      · have hb : (m == r) = false := beq_eq_false_iff_ne.2 hm
        simp [hb]

theorem skips_skipStep (s : State) (n r : Nat) (x : SkipReason) : (s.skipStep n r x).counters.skips = s.counters.skips + 1 := by
  rw [State.skipStep_eq, (completeWaves_aside _).2]
  change (s.skipping n r).counters.skips + 1 = _
  rw [State.skipping, skips_trigger]
  unfold State.skipped State.dropHold
  split
  · split <;> rfl
  · rfl

theorem skips_skipSteps (l : List Nat) (s : State) (r : Nat) (x : SkipReason) :
    (l.foldl (fun s n => s.skipStep n r x) s).counters.skips = s.counters.skips + BitVec.ofNat 32 l.length := by
  induction l generalizing s with
  | nil => simp
  | cons n l ih =>
    rw [List.foldl_cons, ih, skips_skipStep, List.length_cons, BitVec.add_assoc]
    congr 1
    rw [Nat.add_comm, BitVec.ofNat_add]
    rfl

theorem skips_skipAt (s : State) (r : Nat) (x : SkipReason) :
    (s.skipAt r x).counters.skips = s.counters.skips + BitVec.ofNat 32 (s.unreleasedAt r).length :=
  skips_skipSteps _ s r x

/-! ### The steps that enter DONE -/

theorem Tracked.finish {a : WaveStep} (h : a.state.active) : Tracked a a.finish := by
  have ha : a.state.terminal = false := by rcases h with h | h <;> rw [h] <;> rfl
  exact .of_not ha (by simp [WaveStep.finish]) (by simp [WaveStep.finish])

theorem tracks_finish {s : State} {n r : Nat} {st : WaveStep} (hst : s.step? n r = some st) (hu : st.state.active) :
    Tracks s (s.updStep n r WaveStep.finish) := by
  refine ⟨Shaped.updStep _ n r fun _ => rfl, (goes_updStep s n r (g := WaveStep.finish) fun _ => rfl).of_found fun m q a b ha e => ?_⟩
  by_cases c : m = n ∧ q = r
  · obtain ⟨rfl, rfl⟩ := c
    cases hst.symm.trans ha
    rw [e, if_pos ⟨rfl, rfl⟩]
    exact .finish hu
  · rw [e, if_neg c]
    exact .refl _

theorem rowChange_enterDone {S : Nat → Prop} {s : State} (h : WavesOk s) {n r : Nat} (hS : Sets S s r)
    (hl : ∃ a, s.step? n r = some a ∧ a.state.active) :
    RowChange S r (Among [n] WaveStep.finish) (s.holdsOf r [n] fun _ => false) s (s.enterDone n r) := by
  obtain ⟨st, hst, hac⟩ := hl
  have ht := tracks_finish hst hac
  obtain ⟨hshape, -⟩ := account_enterDone h n r
  have hside := WavesOnly.enterDone s n r
  have h1 : WavesOk (s.updStep n r WaveStep.finish) := wavesOk_of_shaped h rfl rfl ht.shaped
  have hS1 := (hS n st hst (by rcases hac with e | e <;> rw [e] <;> rfl)).tracks h h1 ht
  refine ⟨wavesOk_of_shaped h hside.plans hside.waveCounter hshape, hshape, (goes_enterDone h hS1).mono fun {m q a b} e => ?_,
    fun m q e => by simp [State.holdsOf], fun hSr hu hd => ?_⟩
  · refine RowGoes.trans (P := fun m a b => b = if m = n then a.finish else a) (Q := fun _ a b => b = a) (fun e k => ?_) (.of_ends e)
      (rowGoes_refl fun _ => rfl)
    rw [k, Among, e]
    simp only [List.mem_singleton]
  · have hgone : (s.holdsOf r [n] fun _ => false) = fun _ => false := by
      funext q
      cases q <;> simp [State.holdsOf]
    rw [hgone]
    unfold State.enterDone
    rw [hst]
    dsimp only
    split
    · exact .of_withdrawn (withdrawn_none _).symm
    · exact edits_trigger h1 (hu.tracked ht.goes fun _ _ _ _ e => e.waiting) hS1

/-- A step of a row whose released steps enter DONE. -/
def WaveStep.finishDue (a : WaveStep) : WaveStep := if a.state.moves then a.finish else a

theorem rowChange_enterDoneAll {S : Nat → Prop} {s : State} (h : WavesOk s) {r : Nat} (hS : Sets S s r) {l : List Nat} (hnd : l.Nodup)
    (hl : ∀ n, n ∈ l ↔ ∃ a, s.step? n r = some a ∧ a.state.moves = true) :
    RowChange S r (fun _ a b => b = a.finishDue) (fun _ => false) s (l.foldl (fun s n => s.enterDone n r) s) := by
  have hfold := rowChange_fold (f := fun s n => s.enterDone n r) (p := fun _ => false) (g := WaveStep.finish)
    (live := fun a => a.state.active) (fun a ha => by rcases ha with e | e <;> rw [e] <;> rfl) (fun a ha => .finish ha)
    (fun u n hu hSu hl => rowChange_enterDone hu hSu hl) hnd h hS fun n hn => by
      obtain ⟨st, hst, hp⟩ := (hl n).1 hn
      exact ⟨st, hst, (StepState.moves_iff _).1 hp⟩
  refine hfold.mono (fun n a b ha e => ?_) fun q => by cases q <;> simp [State.holdsOf]
  rw [e, WaveStep.finishDue]
  have : n ∈ l ↔ a.state.moves = true := by simp [hl, ha]
  by_cases c : a.state.moves = true
  · rw [if_pos c, if_pos (this.2 c)]
  · rw [if_neg c, if_neg fun hn => c (this.1 hn)]

/-! ### The members -/

/-- Turbines of a row's members are owned by steps of that row only (R123). -/
theorem countOf_members {s : State} (h : Core s) {r : Nat} (n q : Nat) :
    s.countOf (s.members r) (Turbine.ownedBy n q) = if q = r then owned s (.low n r) else 0 := by
  have key : ∀ x ∈ s.turbines, x.ownedBy n q = true → x.config.row = q := fun x hx ho =>
    ((h.books.owners x hx (.low n q) (by simpa [Turbine.ownedBy] using ho)).1).symm
  split
  · rename_i e
    subst e
    refine List.countP_congr fun x hx => ?_
    simp only [Bool.and_eq_true, List.contains_iff_mem]
    exact ⟨And.right, fun ho => ⟨(h.table.mem_members_of_mem hx).2 (key x hx ho), ho⟩⟩
  · rename_i e
    refine List.countP_eq_zero.2 fun x hx hc => e ?_
    simp only [Bool.and_eq_true, List.contains_iff_mem] at hc
    rw [← key x hx hc.2]
    exact (h.table.mem_members_of_mem hx).1 hc.1

/-- The members of the row count their turbines of LOW steps superseded (R100). -/
theorem rowChange_members {S : Nat → Prop} {s t : State} (h : Core s) {r : Nat} (k : MembersTaken r (s.members r) s t) (hw : WavesOk t)
    (hs : Shaped s t) : RowChange S r (fun n a b => b = { a with superseded := a.superseded + owned s (.low n r) })
      (s.losesDeadline (s.members r)) s t where
  waves := hw
  shaped := hs
  goes n q := by
    rw [k.steps, countOf_members h]
    cases hst : s.step? n q with
    | none => exact .absent
    | some a =>
      refine .kept ?_
      by_cases e : q = r
      · subst e
        rw [if_pos rfl]
        exact rowGoes_at.2 rfl
      · rw [if_neg e]
        exact rowGoes_refl fun c => absurd c e
  off _ _ _ := rfl
  edits _ _ _ := .of_withdrawn k.divider

end Sys2Proof.Machine

/-! What the neutral context gains at a row, whole (R99, R100, R152, R154). -/

namespace Sys2Proof.Machine

/-! ### What a gain makes of the row -/

/-- A step of a row that the neutral context gains a step at (R99, R100). -/
def State.gainedStep (s : State) (r n : Nat) (a : WaveStep) : WaveStep :=
  if a.state.waits then a.skip
  else if a.state.moves then { a.finish with superseded := a.superseded + owned s (.low n r) }
  else a

/-- What a gain at a row withdraws: the pending hold times of the steps skipped, and the deadlines of the turbines retargeted (R79, R137). -/
def State.rowWithdraws (s : State) (r : Nat) (q : Requester) : Bool :=
  match q with
  | .hold _ _ => s.skipHolds r q
  | .deadline n => s.turbines.any fun x => x.node == n && x.config.row == r && x.moves

/-- A turbine once a fresh neutral step at a row has handled its members (R154). -/
def State.drivenAt (s : State) (r : Nat) (x : Turbine) : Turbine :=
  if x.config.row == r && !atRest s x then { x with live := x.live.driven r } else x

/-- The fresh neutral step at a row once its members are counted, its state not yet decided (R154). -/
def State.countedStep (s : State) (r : Nat) : NeutralStep := s.countIn (s.members r) { row := r }

/-- The neutral steps with one in its place at its row. -/
def placedStep (k : NeutralStep) (l : List NeutralStep) : List NeutralStep :=
  (l.filter fun n => decide (n.row < k.row)) ++ k :: l.filter fun n => decide (k.row < n.row)

/-- What the gain at a row does. -/
structure Gained (S : Nat → Prop) (s : State) (r : Nat) (t : State) : Prop where
  change : RowChange S r (fun n a b => b = s.gainedStep r n a) (s.rowWithdraws r) s t
  skips : t.counters.skips = s.counters.skips + BitVec.ofNat 32 (s.unreleasedAt r).length
  params : t.params = s.params
  active : t.neutral.active = s.neutral.active
  cause : t.neutral.cause = s.neutral.cause
  live : LiveAt s r → t.turbines = s.turbines ∧ t.neutral.steps = s.neutral.steps
  fresh : ¬LiveAt s r → t.turbines = s.turbines.map (s.drivenAt r) ∧
    t.neutral.steps = placedStep ((s.countedStep r).decide (t.neutralQueued r)) s.neutral.steps

theorem owned_eq_zero {s : State} (h : Core s) {o : Owner} (hb : ¬Busy (s.account o)) : owned s o = 0 :=
  List.countP_eq_zero.2 fun x hx ho => hb (h.books.owners x hx o (by simpa using ho)).2.busy

/-- A step that does not move turbines owns none. -/
theorem owned_low_eq_zero {s : State} (h : Core s) {n r : Nat} {a : WaveStep} (ha : s.step? n r = some a) (hm : a.state.moves ≠ true) :
    owned s (.low n r) = 0 := owned_eq_zero h fun hb => by
  obtain ⟨x, hx, hp⟩ := hb
  rw [State.account, ha] at hx
  cases hx
  exact hm ((StepState.moves_iff _).2 ((phase_active_iff _).1 hp))

/-- A step of the row through the three parts of the gain. -/
theorem gainedStep_parts {s : State} (h : Core s) {n r : Nat} {a : WaveStep} (ha : s.step? n r = some a) :
    WaveStep.finishDue { a.skipDue with superseded := a.skipDue.superseded + owned s (.low n r) } = s.gainedStep r n a := by
  have hz := owned_low_eq_zero h ha
  unfold State.gainedStep WaveStep.skipDue
  by_cases hw : a.state.waits = true
  · have hm : a.state.moves ≠ true := fun e => by
      rcases (StepState.waits_iff _).1 hw with c | c <;> simp [StepState.moves, c] at e
    rw [if_pos hw, if_pos hw, hz hm]
    rfl
  · rw [if_neg hw, if_neg hw]
    by_cases hm : a.state.moves = true
    · rw [if_pos hm, WaveStep.finishDue, if_pos hm]
      rfl
    · rw [if_neg hm, WaveStep.finishDue, if_neg hm, hz hm]
      rfl

/-! ### A fresh neutral step -/

theorem drivenIn_members {s : State} (h : RowTableOk s) (r : Nat) : s.turbines.map (s.drivenIn r (s.members r)) = s.turbines.map (s.drivenAt r) :=
  List.map_congr_left fun x hx => by
    have : (s.members r).contains x.node = (x.config.row == r) := by
      rw [Bool.eq_iff_iff]
      simp [h.mem_members_of_mem hx]
    rw [State.drivenIn, State.drivenAt, this]

theorem losesDeadline_members {s : State} (h : RowTableOk s) (r n : Nat) :
    s.losesDeadline (s.members r) (.deadline n) = s.turbines.any fun x => x.node == n && x.config.row == r && x.moves := by
  rw [Bool.eq_iff_iff]
  simp only [State.losesDeadline, List.any_eq_true, Bool.and_eq_true, List.contains_iff_mem, beq_iff_eq]
  exact exists_congr fun x => and_congr_right fun hx => by rw [h.mem_members_of_mem hx]

theorem neutralQueued_congr {s t : State} (hh : t.high = s.high) (ht : t.turbines = s.turbines) (r : Nat) :
    t.neutralQueued r = s.neutralQueued r := by
  simp only [State.neutralQueued, State.ownerOf, State.turbine?, hh, ht]

/-- The fresh step in its place, changed at its row. -/
theorem withFreshStep_map (r : Nat) (l : List NeutralStep) {g : NeutralStep → NeutralStep} (hg : (g { row := r }).row = r) :
    ((withFreshStep r l).map fun k => if k.row = r then g k else k) = placedStep (g { row := r }) l := by
  have hstay : ∀ m : List NeutralStep, (∀ k ∈ m, k.row ≠ r) → (m.map fun k => if k.row = r then g k else k) = m := fun m hm =>
    (List.map_congr_left fun k hk => if_neg (hm k hk)).trans (List.map_id' _)
  rw [withFreshStep, List.map_append, List.map_cons, if_pos rfl, placedStep, hg, hstay, hstay]
  · intro k hk
    have := (List.mem_filter.1 hk).2
    simp only [decide_eq_true_eq] at this
    omega
  · intro k hk
    have := (List.mem_filter.1 hk).2
    simp only [decide_eq_true_eq] at this
    omega

theorem countIn_congr {s t : State} (ht : t.turbines = s.turbines) (hp : t.params = s.params) (l : List Nat) (k : NeutralStep) :
    t.countIn l k = s.countIn l k := by
  have hr : countsSettled t = countsSettled s := funext fun x => by simp only [countsSettled, atRest_congr hp]
  simp only [State.countIn, State.countOf, ht, hr]

theorem drivenAt_congr {s t : State} (hp : t.params = s.params) (r : Nat) : t.drivenAt r = s.drivenAt r :=
  funext fun x => by simp only [State.drivenAt, atRest_congr hp]

theorem members_congr {s t : State} (h : t.layout = s.layout) (r : Nat) : t.members r = s.members r :=
  congrFun (congrArg (fun l => l.2.1) h) r

theorem liveAt_iff_busy {s : State} (h : Core s) {r : Nat} : LiveAt s r ↔ Busy (s.account (.neutral r)) :=
  (busy_neutral_iff h.rows.nodup).symm

theorem Keeping.skipDue (r : Nat) (s : State) : Keeping r (fun _ a b => b = a.skipDue) s := fun n a b _ e => by
  subst e
  unfold WaveStep.skipDue
  split
  · rename_i hw; exact .skip ((StepState.waits_iff _).1 hw)
  · exact .refl _

theorem Keeping.superseding {r : Nat} {s : State} (h : Core s) :
    Keeping r (fun n a b => b = { a with superseded := a.superseded + owned s (.low n r) }) s := fun n a b ha e => by
  subst e
  refine ⟨.rfl, fun hw => ?_, id⟩
  have hw : a.state = .waiting := hw
  rw [owned_low_eq_zero h ha (by rw [hw]; decide)]
  rfl

theorem finishDue_of_terminal {a : WaveStep} (h : a.state.terminal = true) : a.finishDue = a := by
  have : ¬a.state.moves = true := fun e => by
    rcases (StepState.moves_iff _).1 e with c | c <;> rw [c] at h <;> cases h
  rw [WaveStep.finishDue, if_neg this]

theorem counters_enterDoneAll (l : List Nat) (s : State) (r : Nat) :
    (l.foldl (fun s n => s.enterDone n r) s).counters = s.counters := by
  induction l generalizing s with
  | nil => rfl
  | cons n l ih => rw [List.foldl_cons, ih, skips_enterDone]

/-- The row once its members are driven: what a gain has done before the released steps enter DONE. -/
structure Driven (S : Nat → Prop) (s : State) (r : Nat) (t : State) : Prop where
  core : Core t
  change : RowChange S r (fun n a b => b = { a.skipDue with superseded := a.skipDue.superseded + owned s (.low n r) }) (s.rowWithdraws r) s t
  keeping : Keeping r (fun n a b => b = { a.skipDue with superseded := a.skipDue.superseded + owned s (.low n r) }) s
  skips : t.counters.skips = s.counters.skips + BitVec.ofNat 32 (s.unreleasedAt r).length
  params : t.params = s.params
  turbines : t.turbines = s.turbines.map (s.drivenAt r)
  active : t.neutral.active = s.neutral.active
  cause : t.neutral.cause = s.neutral.cause
  steps : t.neutral.steps = placedStep (s.countedStep r) s.neutral.steps

end Sys2Proof.Machine

/-! The gain at a row, put together from its parts (R99, R100, R152, R154). -/

namespace Sys2Proof.Machine

theorem Keeping.driven (s : State) (r : Nat) :
    Keeping r (fun n a b => b = { a.skipDue with superseded := a.skipDue.superseded + owned s (.low n r) }) s := fun n a b _ e => by
  subst e
  unfold WaveStep.skipDue
  split
  · rename_i hw
    have ha : a.state.terminal = false := by rcases (StepState.waits_iff _).1 hw with e | e <;> rw [e] <;> rfl
    exact .of_not ha (by simp [WaveStep.skip]) (by simp [WaveStep.skip])
  · rename_i hw
    exact ⟨.rfl, fun e => absurd (show a.state.waits = true by rw [show a.state = .waiting from e]; rfl) hw, id⟩

/-- The members of a row that gains a neutral step are driven (R154). -/
theorem Core.driven_fresh {S : Nat → Prop} {s s1 : State} (h : Core s) {r : Nat} (hr : r ≤ 15) (hl : ¬LiveAt s r)
    (hset : Settling s s1) (c1 : RowChange S r (fun _ a b => b = a.skipDue) (s.skipHolds r) s s1)
    (hskips : s1.counters.skips = s.counters.skips + BitVec.ofNat 32 (s.unreleasedAt r).length) :
    Driven S s r (((s1.withFresh r).members r).foldl (State.neutralMember r) (s1.withFresh r)) ∧
      ∀ n q, (((s1.withFresh r).members r).foldl (State.neutralMember r) (s1.withFresh r)).step? n q =
        (s1.step? n q).map fun a => { a with superseded := a.superseded + (s1.withFresh r).countOf ((s1.withFresh r).members r) (Turbine.ownedBy n q) } := by
  have hb1 : ¬Busy (s1.account (.neutral r)) := fun hb => hl <| by
    rw [liveAt_iff_busy h]
    simpa only [State.account, State.neutralStep?, hset.aside.neutral] using hb
  have h1 := hset.core h
  have hg0 := OnGain.fresh_step h1 hr hb1
  have hnd := hg0.core.table.members_nodup hr
  have mt := hg0.membersTaken hnd fun n hn => by
    obtain ⟨x, hx, e, -⟩ := (hg0.core.table.mem_members hr).1 hn
    exact ⟨x, hx, e⟩
  have hg := hg0.members hnd
  have c2 : RowChange S r (fun _ a b => b = a) (fun _ => false) s1 (s1.withFresh r) := .of_same hg0.core.waves rfl rfl
  have c3 := rowChange_members (S := S) hg0.core mt hg.core.waves hg.drives.shaped
  have ht1 : (s1.withFresh r).turbines = s.turbines := hset.aside.turbines
  have hp1 : (s1.withFresh r).params = s.params := hset.aside.params
  have hm1 : (s1.withFresh r).members r = s.members r := hset.aside.members r
  have hn1 : (s1.withFresh r).neutral = { s.neutral with steps := withFreshStep r s.neutral.steps } := by
    rw [← hset.aside.neutral]; rfl
  have ho1 : ∀ n, owned (s1.withFresh r) (.low n r) = owned s (.low n r) := fun n => by rw [owned, owned, ht1]
  generalize hs2 : s1.withFresh r = s2 at *
  generalize (s2.members r).foldl (State.neutralMember r) s2 = s3 at *
  refine ⟨⟨hg.core, ?_, .driven s r, ?_, mt.params.trans hp1, ?_, ?_, ?_, ?_⟩, fun n q => ?_⟩
  · have c12 := c1.trans c2 (R := fun _ a b => b = a.skipDue) (.skipDue r s) (fun _ _ _ _ => rfl) fun n a b c e k => k.trans e
    refine (c12.trans c3 (R := fun n a b => b = { a.skipDue with superseded := a.skipDue.superseded + owned s (.low n r) }) (.skipDue r s)
      (fun n b _ hn => ?_) fun n a b c e k => ?_).mono (fun _ _ _ _ e => e) fun q => ?_
    · have hz : owned s2 (.low n r) = 0 := owned_eq_zero hg0.core fun hb => by
        obtain ⟨x, hx, -⟩ := hb
        simp only [State.account, hn] at hx
        cases hx
      rw [hz]
      rfl
    · rw [k, e, ho1]
    · cases q with
      | hold => simp [State.rowWithdraws, State.losesDeadline]
      | deadline n =>
        rw [losesDeadline_members hg0.core.table, ht1]
        simp [State.rowWithdraws, State.skipHolds]
  · rw [mt.counters, ← hs2]
    exact hskips
  · rw [mt.turbines, drivenIn_members hg0.core.table, ht1, drivenAt_congr hp1]
  · rw [mt.neutral, hn1]
  · rw [mt.neutral, hn1]
  · rw [mt.neutral, hn1]
    have hc : ∀ k, s2.countIn (s2.members r) k = s.countIn (s.members r) k := fun k => by rw [hm1, countIn_congr ht1 hp1]
    simp only [hc]
    exact withFreshStep_map r _ (g := s.countIn (s.members r)) rfl
  · rw [mt.steps, ← hs2]
    rfl

/-- The placed step changes at its row. -/
theorem placedStep_map (k : NeutralStep) (l : List NeutralStep) {g : NeutralStep → NeutralStep} (hg : (g k).row = k.row) :
    ((placedStep k l).map fun n => if n.row = k.row then g n else n) = placedStep (g k) l := by
  have hstay : ∀ m : List NeutralStep, (∀ n ∈ m, n.row ≠ k.row) → (m.map fun n => if n.row = k.row then g n else n) = m := fun m hm =>
    (List.map_congr_left fun n hn => if_neg (hm n hn)).trans (List.map_id' _)
  rw [placedStep, List.map_append, List.map_cons, if_pos rfl, placedStep, hg, hstay, hstay]
  · intro n hn
    have := (List.mem_filter.1 hn).2
    simp only [decide_eq_true_eq] at this
    omega
  · intro n hn
    have := (List.mem_filter.1 hn).2
    simp only [decide_eq_true_eq] at this
    omega

/-- A row without a live neutral step gains a fresh one. -/
theorem Core.gained_fresh {S : Nat → Prop} {s : State} (h : Core s) {r : Nat} (hr : r ≤ 15) (hl : ¬LiveAt s r)
    (hS : Sets S s r) : Gained S s r (s.freshNeutral r) := by
  rw [State.freshNeutral_eq]
  have hset := Settling.skipAt h.waves r .neutral
  have c1 := rowChange_skipAt h.waves hS .neutral
  have hskips := skips_skipAt s r .neutral
  generalize s.skipAt r .neutral = s1 at *
  obtain ⟨d, hstep⟩ := h.driven_fresh (S := S) hr hl hset c1 hskips
  generalize ((s1.withFresh r).members r).foldl (State.neutralMember r) (s1.withFresh r) = s3 at *
  have hmem : ∀ n, n ∈ s1.releasedAt r ↔ ∃ a, s3.step? n r = some a ∧ a.state.moves = true := fun n => by
    rw [State.releasedAt_eq, mem_wavesAt c1.waves, hstep]
    cases s1.step? n r with
    | none => simp
    | some a => simp
  have c4 := rowChange_enterDoneAll d.core.waves (hS.tracks h.waves d.core.waves (d.change.tracks d.keeping))
    (wavesAt_nodup c1.waves r StepState.moves) hmem
  have hside : WavesOnly s3 ((s1.releasedAt r).foldl (fun s n => s.enterDone n r) s3) := WavesOnly.fold (fun s n => .enterDone s n r) _ s3
  have hcount := counters_enterDoneAll (s1.releasedAt r) s3 r
  rw [State.releasedAt_eq] at *
  generalize (s1.wavesAt r StepState.moves).foldl (fun s n => s.enterDone n r) s3 = s4 at *
  have c5 : RowChange S r (fun _ a b => b = a) (fun _ => false) s4 (s4.updNeutral r (NeutralStep.decide (s4.neutralQueued r))) :=
    .of_same c4.waves rfl rfl
  refine ⟨?_, ?_, hside.params.trans d.params, ?_, ?_, fun c => absurd c hl, fun _ => ⟨?_, ?_⟩⟩
  · have c34 := d.change.trans c4 (R := fun n a b =>
        b = WaveStep.finishDue { a.skipDue with superseded := a.skipDue.superseded + owned s (.low n r) }) d.keeping
      (fun _ _ hb _ => (finishDue_of_terminal hb).symm) fun n a b c e k => by rw [k, e]
    have hkeep : Keeping r (fun n a b =>
        b = WaveStep.finishDue { a.skipDue with superseded := a.skipDue.superseded + owned s (.low n r) }) s := fun n a b ha e => by
      subst e
      refine (d.keeping n a _ ha rfl).trans ?_
      unfold WaveStep.finishDue
      split
      · rename_i hm; exact .finish ((StepState.moves_iff _).1 hm)
      · exact .refl _
    refine (c34.trans c5 (R := fun n a b =>
      b = WaveStep.finishDue { a.skipDue with superseded := a.skipDue.superseded + owned s (.low n r) }) hkeep (fun _ _ _ _ => rfl)
      fun _ _ _ _ e k => k.trans e).mono (fun n a b ha e => ?_) fun q => by simp
    rw [e, gainedStep_parts h ha]
  · change s4.counters.skips = _
    rw [hcount]
    exact d.skips
  · exact (congrArg Neutral.active hside.neutral).trans d.active
  · exact (congrArg Neutral.cause hside.neutral).trans d.cause
  · exact hside.turbines.trans d.turbines
  · change (s4.neutral.steps.map fun k => if k.row = r then _ else k) = _
    rw [hside.neutral, d.steps]
    exact placedStep_map (s.countedStep r) s.neutral.steps (g := NeutralStep.decide (s4.neutralQueued r)) rfl

/-- A row with a live neutral step keeps it; its unreleased steps are skipped (R152). -/
theorem Core.gained_live {S : Nat → Prop} {s : State} (h : Core s) (ap : Apart s.account) {r : Nat} (hl : LiveAt s r)
    (hS : Sets S s r) : Gained S s r (s.skipAt r .neutral) := by
  have hset := Settling.skipAt h.waves r .neutral
  have hfree : ∀ n, ¬Busy (s.account (.low n r)) := fun n => ap n r ((liveAt_iff_busy h).1 hl)
  refine ⟨(rowChange_skipAt h.waves hS .neutral).mono (fun n a b ha e => ?_) fun q => ?_, skips_skipAt s r .neutral, hset.aside.params,
    congrArg Neutral.active hset.aside.neutral, congrArg Neutral.cause hset.aside.neutral,
    fun _ => ⟨hset.aside.turbines, congrArg Neutral.steps hset.aside.neutral⟩, fun c => absurd hl c⟩
  · rw [e, ← gainedStep_parts h ha, owned_eq_zero h (hfree n)]
    have hm : ¬a.skipDue.state.moves = true := fun hm => by
      unfold WaveStep.skipDue at hm
      split at hm
      · cases hm
      · refine hfree n ⟨a.account, ?_, (phase_active_iff _).2 ((StepState.moves_iff _).1 hm)⟩
        rw [State.account, ha]
        rfl
    rw [WaveStep.finishDue, if_neg hm]
    rfl
  · cases q with
    | hold => rfl
    | deadline n =>
      refine (List.any_eq_false.2 fun x hx hc => ?_ : (s.turbines.any _) = false).symm
      simp only [Bool.and_eq_true, beq_iff_eq, Turbine.moves] at hc
      obtain ⟨⟨-, hrow⟩, hm, hs⟩ := hc
      rcases Turbine.handled_iff.1 (h.books.handled x hx) with ⟨e, -⟩ | ⟨o, ho, -, ⟨e, -⟩ | ⟨-, e⟩ | ⟨e, -⟩⟩
      · rw [e] at hm; cases hm
      · rw [e] at hm; cases hm
      · obtain ⟨e1, hback⟩ := h.books.owners x hx o ho
        cases o with
        | neutral q =>
          rw [hs] at e
          cases e
        | low n q =>
          obtain rfl : q = r := e1.trans hrow
          exact hfree n hback.busy
      · rw [e] at hm; cases hm

/-- A row gains a fresh step unless it has a live one (R152). -/
theorem Core.gainNeutral_eq {s : State} (h : Core s) (r : Nat) :
    (LiveAt s r ∧ s.gainNeutral r = s.skipAt r .neutral) ∨ (¬LiveAt s r ∧ s.gainNeutral r = s.freshNeutral r) := by
  unfold State.gainNeutral
  split
  · rename_i k hk
    obtain ⟨hm, hrow⟩ := State.neutralStep?_mem hk
    split
    · rename_i hd
      refine .inr ⟨fun ⟨k', hk', hrow', hd'⟩ => hd' ?_, rfl⟩
      have : k' = k := List.inj_on_of_nodup_map h.rows.nodup hk' hm (hrow'.trans hrow.symm)
      rw [this, hd]
    · rename_i hd
      exact .inl ⟨⟨k, hm, hrow, hd⟩, rfl⟩
  · rename_i hk
    refine .inr ⟨fun ⟨k, hm, hrow, _⟩ => ?_, rfl⟩
    have := List.find?_eq_none.1 hk k hm
    simp [hrow] at this

/-- What a row gains (R152). -/
theorem Core.gained {S : Nat → Prop} {s : State} (h : Core s) (ap : Apart s.account) {r : Nat} (hr : r ≤ 15)
    (hS : Sets S s r) : Gained S s r (s.gainNeutral r) := by
  rcases h.gainNeutral_eq r with ⟨hl, e⟩ | ⟨hl, e⟩
  · exact e ▸ h.gained_live ap hl hS
  · exact e ▸ h.gained_fresh hr hl hS

end Sys2Proof.Machine

/-! One row of a NEUTRAL request: the mask, the gain and the completion (R153). -/

namespace Sys2Proof.Machine

/-- One row of a NEUTRAL request (R153). -/
def State.neutralRow (s : State) (r : Nat) : State := ((s.setMask r true).gainNeutral r).completeWaves

theorem State.neutralRows_eq (s : State) (rs : List Nat) : s.neutralRows rs = rs.foldl State.neutralRow s := rfl

theorem countedStep_setMask (s : State) (q r : Nat) (b : Bool) : (s.setMask q b).countedStep r = s.countedStep r := by
  rw [State.countedStep, State.countedStep, members_congr (layout_setMask s q b)]
  exact countIn_congr rfl rfl _ _

/-- Completion behind the gain of a row. -/
theorem Gained.completeWaves {S : Nat → Prop} {s t : State} {r : Nat} (h : Gained S s r t)
    (hk : Keeping r (fun n a b => b = s.gainedStep r n a) s) : Gained S s r t.completeWaves := by
  have hside := WavesOnly.completeWaves t
  have c := h.change.trans (rowChange_completeWaves r h.change.waves) (R := fun n a b => b = s.gainedStep r n a) hk (fun _ _ _ _ => rfl)
    fun n a b c e k => k.trans e
  refine ⟨c.mono (fun _ _ _ _ e => e) fun q => by simp, (completeWaves_aside t).2.trans h.skips, hside.params.trans h.params,
    (congrArg Neutral.active hside.neutral).trans h.active, (congrArg Neutral.cause hside.neutral).trans h.cause, fun hl => ?_, fun hl => ?_⟩
  · obtain ⟨h1, h2⟩ := h.live hl
    exact ⟨hside.turbines.trans h1, (congrArg Neutral.steps hside.neutral).trans h2⟩
  · obtain ⟨h1, h2⟩ := h.fresh hl
    refine ⟨hside.turbines.trans h1, (congrArg Neutral.steps hside.neutral).trans ?_⟩
    rw [h2, neutralQueued_congr hside.high hside.turbines]

theorem Gained.of_setMask {S : Nat → Prop} {s t : State} {r : Nat} (h : Gained S (s.setMask r true) r t) : Gained S s r t where
  change := ⟨h.change.waves, h.change.shaped, h.change.goes, h.change.off, h.change.edits⟩
  skips := h.skips
  params := h.params
  active := h.active
  cause := h.cause
  live := h.live
  fresh hl := by
    obtain ⟨h1, h2⟩ := h.fresh hl
    rw [countedStep_setMask] at h2
    exact ⟨h1, h2⟩

theorem tracked_gainedStep (s : State) (r n : Nat) (a : WaveStep) : Tracked a (s.gainedStep r n a) := by
  unfold State.gainedStep
  split
  · rename_i hw; exact .skip ((StepState.waits_iff _).1 hw)
  · split
    · rename_i hm
      have ha : a.state.terminal = false := by rcases (StepState.moves_iff _).1 hm with e | e <;> rw [e] <;> rfl
      exact .of_not ha (by simp [WaveStep.finish]) (by simp [WaveStep.finish])
    · exact .refl _

theorem Keeping.gainedStep {s : State} (r : Nat) : Keeping r (fun n a b => b = s.gainedStep r n a) s :=
  fun n a _ _ e => e ▸ tracked_gainedStep s r n a

/-- One row of a NEUTRAL request gains what it names (R152, R153). -/
theorem Gaining.neutralRow {S : Nat → Prop} {s : State} (h : Gaining s) {r : Nat} (hr : r ≤ 15) (hS : Sets S s r) :
    Gaining (s.neutralRow r) ∧ (s.neutralRow r).layout = s.layout ∧ Gained S s r (s.neutralRow r) := by
  have hm := h.setMask r true
  have hg := hm.core.gainNeutral hm.apart hr
  have hgain : Gained S s r ((s.setMask r true).gainNeutral r) := (hm.core.gained hm.apart hr hS).of_setMask
  exact ⟨(Gaining.mk hg.core hg.apart).completeWaves,
    (WavesOnly.completeWaves _).layout.trans (hg.drives.layout.trans (layout_setMask s r true)), hgain.completeWaves (.gainedStep r)⟩

/-! ### The rows of a request -/

/-- The neutral context has a step at the row that is not DONE, as a test. -/
def State.liveAt (s : State) (r : Nat) : Bool := s.neutral.steps.any fun k => k.row == r && k.state != .done

theorem State.liveAt_iff (s : State) (r : Nat) : s.liveAt r = true ↔ LiveAt s r := by
  simp only [State.liveAt, LiveAt, List.any_eq_true, Bool.and_eq_true, beq_iff_eq, bne_iff_ne]

theorem State.not_liveAt_iff (s : State) (r : Nat) : s.liveAt r = false ↔ ¬LiveAt s r := by
  rw [← s.liveAt_iff, Bool.not_eq_true]

/-- A step of a row: at a named row, it has started at most and then been handled; at another, it has started at most. -/
def LedGoes (S : Nat → Prop) (s : State) (rs : List Nat) (n q : Nat) (a b : WaveStep) : Prop :=
  ∃ a', (a' = a ∨ (S q ∧ a.state = .waiting ∧ a' = a.start)) ∧ b = if q ∈ rs then s.gainedStep q n a' else a'

/-- A turbine once the rows of a request are handled. -/
def State.ledTurbine (s : State) (rs : List Nat) (x : Turbine) : Turbine :=
  if rs.contains x.config.row && !s.liveAt x.config.row then s.drivenAt x.config.row x else x

/-- A turbine that is QUEUED for the neutral step at the row. -/
def QueuedFor (s : State) (r : Nat) : Prop := ∃ x ∈ s.turbines, x.live.move = .queued ∧ x.live.owner = some (.neutral r)

/-- A neutral step as a request leaves it: fresh at a named row without a live one, or one that stands (R152). -/
def LedStep (s : State) (rs : List Nat) (t : State) (k : NeutralStep) : Prop :=
  (k ∈ s.neutral.steps ∧ (k.row ∉ rs ∨ LiveAt s k.row)) ∨
    ∃ r ∈ rs, ¬LiveAt s r ∧ ∃ b : Bool, (b = true ↔ QueuedFor t r) ∧ k = (s.countedStep r).decide b

/-- What the rows of a request do to a state. -/
structure Led (S : Nat → Prop) (s : State) (rs : List Nat) (t : State) : Prop where
  gaining : Gaining t
  shaped : Shaped s t
  goes : Goes (LedGoes S s rs) s t
  skips : t.counters.skips = s.counters.skips + BitVec.ofNat 32 (rs.map fun r => (s.unreleasedAt r).length).sum
  params : t.params = s.params
  layout : t.layout = s.layout
  active : t.neutral.active = s.neutral.active
  cause : t.neutral.cause = s.neutral.cause
  turbines : t.turbines = s.turbines.map (s.ledTurbine rs)
  steps : ∀ k, k ∈ t.neutral.steps ↔ LedStep s rs t k
  edits : (∀ r ∈ rs, ¬S r) → Unforced s → s.divider.Sane → Edits S (fun q => rs.any fun r => s.rowWithdraws r q) s t

end Sys2Proof.Machine

/-! The rows of a NEUTRAL request before a row leave that row as it was (R153). -/

namespace Sys2Proof.Machine

/-! ### What the members of a row count -/

theorem countOf_members_eq {s : State} (h : RowTableOk s) (r : Nat) (p : Turbine → Bool) :
    s.countOf (s.members r) p = s.turbines.countP fun x => x.config.row == r && p x :=
  List.countP_congr fun x hx => by simp only [Bool.and_eq_true, List.contains_iff_mem, h.mem_members_of_mem hx, beq_iff_eq]

theorem owned_eq_countP {s : State} (h : Core s) (n r : Nat) :
    owned s (.low n r) = s.turbines.countP fun x => x.config.row == r && x.ownedBy n r := by
  rw [← countOf_members_eq h.table, countOf_members h, if_pos rfl]

theorem ledTurbine_fixed (s : State) (rs : List Nat) (x : Turbine) : (s.ledTurbine rs x).config = x.config ∧ (s.ledTurbine rs x).node = x.node := by
  unfold State.ledTurbine State.drivenAt
  split
  · split <;> exact ⟨rfl, rfl⟩
  · exact ⟨rfl, rfl⟩

theorem ledTurbine_off {s : State} {rs : List Nat} {x : Turbine} (h : x.config.row ∉ rs) : s.ledTurbine rs x = x := by
  unfold State.ledTurbine
  rw [if_neg]
  simp [h]

section
variable {S : Nat → Prop} {s u : State} {rs : List Nat} (h : Led S s rs u) {r : Nat} (hr : r ∉ rs)
include h hr

/-- Counts of a row's turbines stand. -/
theorem Led.countP (p : Turbine → Bool) : (u.turbines.countP fun x => x.config.row == r && p x) =
    s.turbines.countP fun x => x.config.row == r && p x := by
  rw [h.turbines, List.countP_map]
  refine List.countP_congr fun x _ => ?_
  simp only [Function.comp, (ledTurbine_fixed s rs x).1]
  by_cases e : x.config.row = r
  · rw [ledTurbine_off (e ▸ hr)]
  · simp [e]

theorem Led.any (p : Turbine → Bool) : (u.turbines.any fun x => x.config.row == r && p x) =
    s.turbines.any fun x => x.config.row == r && p x := by
  rw [h.turbines, List.any_map]
  refine congrArg s.turbines.any (funext fun x => ?_)
  rw [Function.comp_apply, (ledTurbine_fixed s rs x).1]
  by_cases e : x.config.row = r
  · rw [ledTurbine_off (e ▸ hr)]
  · rw [beq_eq_false_iff_ne.2 e]; rfl

theorem Led.gainedStep (hs : Core s) (n : Nat) (a : WaveStep) : u.gainedStep r n a = s.gainedStep r n a := by
  rw [State.gainedStep, State.gainedStep, owned_eq_countP h.gaining.core, owned_eq_countP hs, h.countP hr]

theorem Led.countedStep (hs : Core s) : u.countedStep r = s.countedStep r := by
  have hset : countsSettled u = countsSettled s := funext fun x => by simp only [countsSettled, atRest_congr h.params]
  simp only [State.countedStep, State.countIn, countOf_members_eq h.gaining.core.table]
  simp only [countOf_members_eq hs.table, hset, h.countP hr, members_congr h.layout]

theorem Led.liveAt : LiveAt u r ↔ LiveAt s r := by
  constructor
  · rintro ⟨k, hk, rfl, hd⟩
    rcases (h.steps k).1 hk with ⟨hks, -⟩ | ⟨q, hq, -, b, -, rfl⟩
    · exact ⟨k, hks, rfl, hd⟩
    · exact absurd hq hr
  · rintro ⟨k, hk, rfl, hd⟩
    exact ⟨k, (h.steps k).2 (.inl ⟨hk, .inl hr⟩), rfl, hd⟩

/-- The steps at the row have started at most. -/
theorem Led.early (n : Nat) : StepGoes (fun a b => b = a ∨ (S r ∧ a.state = .waiting ∧ b = a.start)) (s.step? n r) (u.step? n r) :=
  (h.goes n r).mono fun {a b} ⟨a', ha, e⟩ => by
    rw [if_neg hr] at e
    exact e ▸ ha

theorem Led.waits (n : Nat) : (u.step? n r).any (fun a => a.state.waits) = (s.step? n r).any fun a => a.state.waits := by
  have he := h.early hr n
  generalize s.step? n r = x at *
  generalize u.step? n r = y at *
  cases he with
  | absent => rfl
  | left l e =>
    rename_i a b
    rcases l with rfl | ⟨-, -, rfl⟩
    · have : b.state.waits = false := by cases hb : b.state <;> simp [StepState.waits, StepState.terminal, hb] at e ⊢
      simp [this]
    · cases e
  | kept l =>
    rcases l with rfl | ⟨-, hw, rfl⟩
    · rfl
    · simp [StepState.waits, WaveStep.start, hw]

theorem Led.unreleasedAt (hs : Core s) : (u.unreleasedAt r).length = (s.unreleasedAt r).length := by
  have hw := h.waits hr
  rw [State.unreleasedAt_eq, State.unreleasedAt_eq]
  refine List.Perm.length_eq ((List.perm_ext_iff_of_nodup (wavesAt_nodup h.gaining.core.waves r _) (wavesAt_nodup hs.waves r _)).2 fun n => ?_)
  rw [mem_wavesAt h.gaining.core.waves, mem_wavesAt hs.waves]
  have hn := hw n
  constructor
  · rintro ⟨st, hst, hp⟩
    rw [hst] at hn
    exact (Option.any_eq_true _ _).1 (hn.symm.trans hp)
  · rintro ⟨st, hst, hp⟩
    rw [hst] at hn
    exact (Option.any_eq_true _ _).1 (hn.trans hp)

/-- Where no step starts at the row, its hold times stand. -/
theorem Led.rowWithdraws (hS : ¬S r) (q : Requester) : u.rowWithdraws r q = s.rowWithdraws r q := by
  cases q with
  | deadline n =>
    have := h.any hr fun x => x.node == n && x.moves
    simp only [State.rowWithdraws]
    convert this using 3 <;> simp only [Bool.and_left_comm, Bool.and_assoc]
  | hold n m =>
    simp only [State.rowWithdraws, State.skipHolds]
    by_cases e : m = r
    · subst e
      have he := h.early hr n
      congr 1
      generalize s.step? n m = x at *
      generalize u.step? n m = y at *
      cases he with
      | absent => rfl
      | left l e =>
        rename_i a b
        rcases l with rfl | ⟨hq, -⟩
        · have : b.state.waits = false := by cases hb : b.state <;> simp [StepState.waits, StepState.terminal, hb] at e ⊢
          simp [this]
        · exact absurd hq hS
      | kept l =>
        rcases l with rfl | ⟨hq, -⟩
        · rfl
        · exact absurd hq hS
    · have hb : (m == r) = false := beq_eq_false_iff_ne.2 e
      rw [hb]
      rfl

end

theorem Led.tracks {S : Nat → Prop} {s u : State} {rs : List Nat} (h : Led S s rs u) : Tracks s u := by
  refine ⟨h.shaped, h.goes.mono fun {n q a b} ⟨a', ha, e⟩ => ?_⟩
  have h1 : Tracked a a' := by
    rcases ha with rfl | ⟨-, hw, rfl⟩
    · exact .refl _
    · exact .of_not (by rw [hw]; rfl) (by simp [WaveStep.start]) (by simp [WaveStep.start])
  rw [e]
  split
  · exact h1.trans (tracked_gainedStep s q n a')
  · exact h1

end Sys2Proof.Machine

/-! The rows of a NEUTRAL request, one after another (R153). -/

namespace Sys2Proof.Machine

theorem gainedStep_not_waiting (s : State) (r n : Nat) (a : WaveStep) : (s.gainedStep r n a).state ≠ .waiting := by
  unfold State.gainedStep
  split
  · simp [WaveStep.skip]
  · split
    · simp [WaveStep.finish]
    · rename_i hw _
      exact fun e => hw (by rw [e]; rfl)

theorem gainedStep_of_terminal {s : State} {r n : Nat} {a : WaveStep} (h : a.state.terminal = true) : s.gainedStep r n a = a := by
  unfold State.gainedStep
  rw [if_neg, if_neg] <;> intro e <;> cases hs : a.state <;> simp [hs, StepState.terminal, StepState.waits, StepState.moves] at h e

theorem mem_placedStep {k k' : NeutralStep} {l : List NeutralStep} :
    k' ∈ placedStep k l ↔ k' = k ∨ (k' ∈ l ∧ k'.row ≠ k.row) := by
  simp only [placedStep, List.mem_append, List.mem_filter, List.mem_cons, decide_eq_true_eq]
  constructor
  · rintro (⟨h, hlt⟩ | rfl | ⟨h, hlt⟩)
    · exact .inr ⟨h, by omega⟩
    · exact .inl rfl
    · exact .inr ⟨h, by omega⟩
  · rintro (rfl | ⟨h, hne⟩)
    · exact .inr (.inl rfl)
    · rcases Nat.lt_or_gt_of_ne hne with hlt | hlt
      · exact .inl ⟨h, hlt⟩
      · exact .inr (.inr ⟨h, hlt⟩)

/-- A request of the neutral step at a row stands in the HIGH list exactly while a turbine is QUEUED for it. -/
theorem Core.neutralQueued_iff {s : State} (h : Core s) (r : Nat) : s.neutralQueued r = true ↔ QueuedFor s r := by
  constructor
  · intro hq
    simp only [State.neutralQueued, List.any_eq_true, beq_iff_eq] at hq
    obtain ⟨n, hn, ho⟩ := hq
    obtain ⟨x, hx, rfl, hw⟩ := h.books.high.2.1 n hn
    simp only [State.ownerOf, h.table.turbine?_of_mem hx, Option.bind_some] at ho
    refine ⟨x, hx, ?_, ho⟩
    unfold Turbine.waitsHigh at hw
    split at hw
    · assumption
    · cases hw
  · rintro ⟨x, hx, hm, ho⟩
    cases hq : s.neutralQueued r with
    | true => rfl
    | false => exact absurd hm (h.not_queued_neutral hq x hx ho)

/-- What is queued for another row's step stands over the gain of a row. -/
theorem queuedFor_drivenAt {s t : State} (hs : Core s) (ht : Core t) {r q : Nat} (hq : q ≠ r)
    (h : t.turbines = s.turbines ∨ t.turbines = s.turbines.map (s.drivenAt r)) : QueuedFor t q ↔ QueuedFor s q := by
  have hrow : ∀ {u : State}, Core u → ∀ x ∈ u.turbines, x.live.owner = some (.neutral q) → x.config.row = q := fun hu x hx ho =>
    ((hu.books.owners x hx (.neutral q) ho).1).symm
  have hoff : ∀ x : Turbine, x.config.row ≠ r → s.drivenAt r x = x := fun x e => by simp [State.drivenAt, e]
  have hconf : ∀ x : Turbine, (s.drivenAt r x).config = x.config := fun x => by unfold State.drivenAt; split <;> rfl
  rcases h with h | h
  · simp only [QueuedFor, h]
  · constructor
    · rintro ⟨y, hy, hm, ho⟩
      have hyr := hrow ht y hy ho
      obtain ⟨x, hx, rfl⟩ := List.mem_map.1 (h ▸ hy)
      rw [hconf] at hyr
      rw [hoff x (hyr ▸ hq)] at hm ho
      exact ⟨x, hx, hm, ho⟩
    · rintro ⟨x, hx, hm, ho⟩
      refine ⟨x, h ▸ List.mem_map.2 ⟨x, hx, hoff x ?_⟩, hm, ho⟩
      rw [hrow hs x hx ho]
      exact hq

theorem ledTurbine_snoc {s : State} {rs : List Nat} {r : Nat} (hr : r ∉ rs) (x : Turbine) :
    s.ledTurbine (rs ++ [r]) x = if s.liveAt r then s.ledTurbine rs x else s.drivenAt r (s.ledTurbine rs x) := by
  by_cases e : x.config.row = r
  · have hx : x.config.row ∉ rs := e ▸ hr
    rw [ledTurbine_off hx]
    cases hl : s.liveAt r <;> simp [State.ledTurbine, e, hl]
  · have h1 : s.ledTurbine (rs ++ [r]) x = s.ledTurbine rs x := by simp [State.ledTurbine, e]
    have h2 : s.drivenAt r (s.ledTurbine rs x) = s.ledTurbine rs x := by
      rw [State.drivenAt, (ledTurbine_fixed s rs x).1, if_neg (by simp [e])]
    rw [h1, h2, ite_self]

theorem Led.nil {S : Nat → Prop} {s : State} (h : Gaining s) : Led S s [] s where
  gaining := h
  shaped := Shaped.refl s
  goes := .of_waves (fun _ _ a => ⟨a, .inl rfl, by simp⟩) rfl
  skips := by simp
  params := rfl
  layout := rfl
  active := rfl
  cause := rfl
  turbines := by
    refine ((List.map_congr_left fun x _ => ?_).trans (List.map_id' _)).symm
    exact ledTurbine_off (by simp)
  steps k := by simp [LedStep]
  edits _ _ _ := .of_withdrawn (by simp [withdrawn_none])

/-- One more row. -/
theorem Led.row {S : Nat → Prop} {s u v : State} {rs : List Nat} (hs : Core s) (h : Led S s rs u) {r : Nat} (hr : r ∉ rs)
    (hv : Gaining v) (hl : v.layout = u.layout) (g : Gained S u r v) : Led S s (rs ++ [r]) v := by
  have hgain := fun n a => h.gainedStep hr hs n a
  have hlive := h.liveAt hr
  have hdriven : u.drivenAt r = s.drivenAt r := drivenAt_congr h.params r
  refine ⟨hv, h.shaped.trans g.change.shaped, ?_, ?_, g.params.trans h.params, hl.trans h.layout, g.active.trans h.active,
    g.cause.trans h.cause, ?_, fun k => ?_, fun hS hu hd => ?_⟩
  · refine h.goes.comp g.change.goes (fun n q a ht _ _ => rowGoes_refl fun e => by rw [gainedStep_of_terminal ht])
      fun {n q a b c} hab hbc => ?_
    obtain ⟨a', ha, e⟩ := hab
    by_cases hq : q = r
    · subst hq
      rw [if_neg hr] at e
      subst e
      refine ⟨b, ha, ?_⟩
      rw [rowGoes_at.1 hbc, hgain, if_pos (by simp)]
    · have hmem : q ∈ rs ++ [r] ↔ q ∈ rs := by simp [hq]
      simp only [LedGoes, hmem]
      rcases (rowGoes_off hq).1 hbc with rfl | ⟨hS, hw, rfl⟩
      · exact ⟨a', ha, e⟩
      · by_cases hqs : q ∈ rs
        · rw [if_pos hqs] at e
          exact absurd (e ▸ hw) (gainedStep_not_waiting s q n a')
        · rw [if_neg hqs] at e
          subst e
          rcases ha with rfl | ⟨-, -, rfl⟩
          · exact ⟨_, .inr ⟨hS, hw, rfl⟩, by rw [if_neg hqs]⟩
          · cases hw
  · rw [g.skips, h.skips, h.unreleasedAt hr hs]
    simp [BitVec.add_assoc, BitVec.ofNat_add]
  · rw [List.map_congr_left fun x _ => ledTurbine_snoc hr x]
    by_cases c : LiveAt s r
    · rw [(g.live (hlive.2 c)).1, h.turbines, (s.liveAt_iff r).2 c]
      rfl
    · rw [(g.fresh (fun e => c (hlive.1 e))).1, h.turbines, (s.not_liveAt_iff r).2 c, hdriven, List.map_map]
      rfl
  · have hturb : v.turbines = u.turbines ∨ v.turbines = u.turbines.map (u.drivenAt r) := by
      by_cases c : LiveAt u r
      · exact .inl (g.live c).1
      · exact .inr (g.fresh c).1
    have hqueued : ∀ q ∈ rs, (QueuedFor v q ↔ QueuedFor u q) := fun q hq =>
      queuedFor_drivenAt h.gaining.core hv.core (fun (e : q = r) => hr (e ▸ hq)) hturb
    by_cases c : LiveAt s r
    · rw [(g.live (hlive.2 c)).2, h.steps]
      constructor
      · rintro (⟨hk, ho⟩ | ⟨q, hq, hn, b, hb, rfl⟩)
        · refine .inl ⟨hk, ?_⟩
          by_cases e : k.row = r
          · exact .inr (e ▸ c)
          · exact ho.imp (fun ho => by simp [ho, e]) id
        · exact .inr ⟨q, by simp [hq], hn, b, hb.trans (hqueued q hq).symm, rfl⟩
      · rintro (⟨hk, ho⟩ | ⟨q, hq, hn, b, hb, rfl⟩)
        · exact .inl ⟨hk, ho.imp (fun ho e => ho (by simp [e])) id⟩
        · rcases List.mem_append.1 hq with hq | hq
          · exact .inr ⟨q, hq, hn, b, hb.trans (hqueued q hq), rfl⟩
          · exact absurd (List.mem_singleton.1 hq ▸ c) hn
    · have hrow : ((u.countedStep r).decide (v.neutralQueued r)).row = r := rfl
      rw [(g.fresh (fun e => c (hlive.1 e))).2, mem_placedStep, hrow, h.countedStep hr hs, h.steps]
      constructor
      · rintro (rfl | ⟨⟨hk, ho⟩ | ⟨q, hq, hn, b, hb, rfl⟩, hne⟩)
        · exact .inr ⟨r, by simp, c, _, hv.core.neutralQueued_iff r, rfl⟩
        · exact .inl ⟨hk, ho.imp (fun ho => by simp [ho, hne]) id⟩
        · exact .inr ⟨q, by simp [hq], hn, b, hb.trans (hqueued q hq).symm, rfl⟩
      · rintro (⟨hk, ho⟩ | ⟨q, hq, hn, b, hb, rfl⟩)
        · have hne : k.row ≠ r := fun e => by
            rcases ho with ho | ho
            · exact ho (by simp [e])
            · exact c (e ▸ ho)
          exact .inr ⟨.inl ⟨hk, ho.imp (fun ho e => ho (by simp [e])) id⟩, hne⟩
        · rcases List.mem_append.1 hq with hq | hq
          · exact .inr ⟨.inr ⟨q, hq, hn, b, hb.trans (hqueued q hq), rfl⟩, fun e => hr (e ▸ hq)⟩
          · obtain rfl := List.mem_singleton.1 hq
            have : v.neutralQueued q = b := by rw [Bool.eq_iff_iff, hv.core.neutralQueued_iff, hb]
            exact .inl (by rw [this])
  · have hSr := hS r (by simp)
    have h1 := h.edits (fun q hq => hS q (by simp [hq])) hu hd
    have h2 := g.change.edits hSr (hu.tracked h.tracks.goes fun _ _ _ _ e => e.waiting) (h1.sane hd)
    have h3 := h1.trans h2 hd hSr g.change.goes fun n q hq => g.change.off n q fun e => hSr (e ▸ hq)
    have e : (fun q => (rs ++ [r]).any fun r => s.rowWithdraws r q) = fun q => (rs.any fun r => s.rowWithdraws r q) || u.rowWithdraws r q := by
      funext q
      simp [h.rowWithdraws hr hSr]
    rw [e]
    exact h3

/-- All rows of a request. -/
theorem Led.rows {S : Nat → Prop} {s : State} (hs : Gaining s) (rs : List Nat) {done : List Nat} {u : State} (h : Led S s done u)
    (hnd : (done ++ rs).Nodup) (hrs : ∀ r ∈ rs, r ≤ 15) (hS : ∀ r ∈ rs, Sets S s r) : Led S s (done ++ rs) (u.neutralRows rs) := by
  induction rs generalizing done u with
  | nil => exact (List.append_nil done).symm ▸ h
  | cons r rs ih =>
    have hr : r ∉ done := fun e => by
      have := List.disjoint_of_nodup_append hnd e
      simp at this
    have hSr : Sets S u r := (hS r List.mem_cons_self).tracks hs.core.waves h.gaining.core.waves h.tracks
    obtain ⟨hv, hlayout, g⟩ := h.gaining.neutralRow (hrs r List.mem_cons_self) hSr
    have h1 := h.row hs.core hr hv hlayout g
    have h2 := ih h1 (by simpa using hnd) (fun q hq => hrs q (List.mem_cons_of_mem _ hq)) fun q hq => hS q (List.mem_cons_of_mem _ hq)
    rw [List.append_assoc] at h2
    exact h2

end Sys2Proof.Machine

/-! The end of a NEUTRAL request: the context is judged, the release tests are made, and the arbiter is served (R85, R129, R151). -/

namespace Sys2Proof.Machine

/-- What the end of the event leaves of the state that the rows of the request made. -/
structure Concluded (u t : State) : Prop where
  sound : Sound t
  served : ArbiterServed t
  mode : t.mode = u.mode
  steady : Steady u t
  shaped : Shaped u t
  goes : Goes (fun _ _ => Late) u t
  turbines : ∀ x ∈ u.turbines, u.masked x.config.row = true → ∃ y ∈ t.turbines, Granted x y
  cleared : (∀ k ∈ u.neutral.steps, k.state = .done) → t.neutral = ⟨false, none, []⟩
  working : (∃ k ∈ u.neutral.steps, k.state ≠ .done) →
    t.neutral.active = true ∧ t.neutral.cause = u.neutral.cause ∧ List.Forall₂ Advances u.neutral.steps t.neutral.steps
  queueing : ∀ r, u.masked r = true → Queueing u r → Queueing t r
  places : NoneDue u → Places u t

/-- The judgement of the context, in either case (R151). -/
theorem State.judgeNeutral_cases (u : State) :
    ((∀ k ∈ u.neutral.steps, k.state = .done) ∧ u.judgeNeutral = { u with neutral := {} }) ∨
      ((∃ k ∈ u.neutral.steps, k.state ≠ .done) ∧ u.judgeNeutral = { u with neutral := { u.neutral with active := true } }) := by
  unfold State.judgeNeutral
  split
  · rename_i h
    exact .inl ⟨by simpa using h, rfl⟩
  · rename_i h
    exact .inr ⟨by simpa using h, rfl⟩

theorem State.judgeEnd_of_steer {s : State} (h : s.mode = .steer) : s.judgeEnd = s := by
  simp [State.judgeEnd, State.drainOver, State.returnOver, h]

/-- The release tests leave the neutral steps of masked rows their queued turbines. -/
theorem Spares.queueing {s t : State} (h : Spares s t) (hs : Core s) (ht : Core t) {r : Nat} (hm : s.masked r = true) (hq : Queueing s r) :
    Queueing t r := fun k hk hr hst => by
  rw [h.neutral] at hk
  obtain ⟨x, hx, hmv, ho⟩ := (hs.neutralQueued_iff r).1 (hq k hk hr hst)
  have hrow : x.config.row = r := ((hs.books.owners x hx (.neutral r) ho).1).symm
  exact (ht.neutralQueued_iff r).2 ⟨x, h.turbines x hx (hrow ▸ hm), hmv, ho⟩

/-- The end of an event of a sound state in STEER. -/
theorem Sound.settled {s : State} (h : Sound s) (hm : s.mode = .steer) : ∃ w : State, Sound w ∧ Goes (fun _ _ => Late) s w ∧ Spares s w ∧ Shaped s w ∧
    (NoneDue s → Places s w) ∧ Serves w s.settle ∧ Sound s.settle ∧ ArbiterServed s.settle ∧ (ArbiterServed w → s.settle = w) := by
  obtain ⟨h1, h2, h3, h4⟩ := releaseLoop_spares (3 * s.stepKeys.length + 1) [] h
  refine ⟨s.releaseTests [], h1, h2, h3, h4, fun hn => releaseLoop_places _ [] h hn, ?_⟩
  have e : s.settle = (s.releaseTests []).serveArbiter := by
    rw [State.settle, State.settleAfter, State.judgeEnd_of_steer (s := s.releaseTests []) (h3.mode.trans hm)]
  rw [e]
  exact ⟨serves_serveArbiter h1, h1.serveArbiter, serveArbiter_served _, serveArbiter_of_served⟩

theorem Gaining.sound_judged {u : State} (h : Gaining u) (hm : u.mode = .steer) : Sound u.judgeNeutral :=
  h.core.judgeNeutral h.apart (fun e => by cases hm.symm.trans e) fun e => by cases hm.symm.trans e

theorem State.judgeNeutral_aside (u : State) : u.judgeNeutral.waves = u.waves ∧ u.judgeNeutral.divider = u.divider ∧
    u.judgeNeutral.counters = u.counters ∧ u.judgeNeutral.turbines = u.turbines ∧ u.judgeNeutral.high = u.high ∧
    u.judgeNeutral.mode = u.mode ∧ u.judgeNeutral.rows = u.rows := by
  unfold State.judgeNeutral
  split <;> exact ⟨rfl, rfl, rfl, rfl, rfl, rfl, rfl⟩

theorem Gaining.concluded {u : State} (h : Gaining u) (hm : u.mode = .steer) : Concluded u u.judgeNeutral.settle := by
  have hv := h.sound_judged hm
  obtain ⟨e1, e2, e3, e4, e5, e6, e7⟩ := u.judgeNeutral_aside
  have hmask : ∀ r, u.judgeNeutral.masked r = u.masked r := fun r => by simp only [State.masked, State.row, e7]
  have hcases := u.judgeNeutral_cases
  have hqueue : ∀ r, Queueing u r → Queueing u.judgeNeutral r := fun r hq k hk hr hst => by
    rw [neutralQueued_congr e5 e4]
    rcases hcases with ⟨-, e⟩ | ⟨-, e⟩
    · rw [e] at hk; cases hk
    · rw [e] at hk; exact hq k hk hr hst
  have hcleared : (∀ k ∈ u.neutral.steps, k.state = .done) → u.judgeNeutral.neutral = ⟨false, none, []⟩ := fun hd => by
    rcases hcases with ⟨-, e⟩ | ⟨⟨k, hk, hne⟩, -⟩
    · rw [e]
    · exact absurd (hd k hk) hne
  have hworking : (∃ k ∈ u.neutral.steps, k.state ≠ .done) → u.judgeNeutral.neutral = { u.neutral with active := true } := fun ⟨k, hk, hne⟩ => by
    rcases hcases with ⟨hd, -⟩ | ⟨-, e⟩
    · exact absurd (hd k hk) hne
    · rw [e]
  obtain ⟨w, hw, hgo, hsp, hsh, hpl, hserve, hsound, hserved, -⟩ := hv.settled (e6.trans hm)
  have hsteady : Steady u u.judgeNeutral.settle := steady_propagates.trans (steady_propagates.judgeNeutral u) (steady_settle _)
  generalize u.judgeNeutral = v at *
  generalize v.settle = t at *
  refine ⟨hsound, hserved, hserve.mode.trans (hsp.mode.trans e6), hsteady,
    (Shaped.of_waves e1).trans (hsh.trans hserve.tells.shaped), ?_, fun x hx hxm => ?_, fun hd => ?_, fun hne => ?_, fun r hr hq => ?_,
    fun hn => ?_⟩
  · exact late_trans (late_of_waves e1) (late_trans hgo (late_of_grants hserve.tells.goes))
  · exact hserve.turbines x (hsp.turbines x (e4 ▸ hx) ((hmask _).trans hxm))
  · have hn : w.neutral = ⟨false, none, []⟩ := hsp.neutral.trans (hcleared hd)
    have h1 := hserve.active
    have h2 := hserve.cause
    have h3 := hserve.steps
    rw [hn] at h1 h2 h3
    have h4 : t.neutral.steps = [] := List.forall₂_nil_left_iff.1 h3
    calc t.neutral = ⟨t.neutral.active, t.neutral.cause, t.neutral.steps⟩ := rfl
      _ = ⟨false, none, []⟩ := by rw [h1, h2, h4]
  · have hn : w.neutral = { u.neutral with active := true } := hsp.neutral.trans (hworking hne)
    have h1 := hserve.active
    have h2 := hserve.cause
    have h3 := hserve.steps
    rw [hn] at h1 h2 h3
    exact ⟨h1, h2, h3⟩
  · exact hserve.queueing r (hsp.queueing hv.toCore hw.toCore ((hmask r).trans hr) (hqueue r hq))
  · have h0 : Places u v := .of_same e1 e2 e3
    have h1 := h0.trans (hpl (hn.goes h0.goes))
    exact h1.trans ⟨late_of_grants hserve.tells.goes, hserve.tells.adds, by rw [hserve.tells.counters]⟩

end Sys2Proof.Machine

/-! What a request's rows gain, as the end of the event leaves it (R151, R152, R154). -/

namespace Sys2Proof.Machine

/-! ### The fresh step -/

theorem length_members {s : State} (h : RowTableOk s) {r : Nat} (hr : r ≤ 15) :
    (s.members r).length = s.turbines.countP fun x => x.config.row == r := by
  have hnd : ((s.turbines.filter fun x => x.config.row == r).map fun x => x.node).Nodup := h.nodes_nodup.sublist (List.filter_sublist.map _)
  have hp : (s.members r).Perm ((s.turbines.filter fun x => x.config.row == r).map fun x => x.node) :=
    (List.perm_ext_iff_of_nodup (h.members_nodup hr) hnd).2 fun n => by
      rw [h.mem_members hr]
      simp only [List.mem_map, List.mem_filter, beq_iff_eq]
      exact exists_congr fun x => ⟨fun ⟨hx, hn, e⟩ => ⟨⟨hx, e⟩, hn⟩, fun ⟨⟨hx, e⟩, hn⟩ => ⟨hx, hn, e⟩⟩
  rw [hp.length_eq, List.length_map, List.countP_eq_length_filter]

/-- A turbine at rest is counted faulted or settled, and no other is. -/
theorem countP_atRest (s : State) (r : Nat) : (s.turbines.countP fun x => x.config.row == r && x.countsFaulted) +
    (s.turbines.countP fun x => x.config.row == r && countsSettled s x) = s.turbines.countP fun x => x.config.row == r && atRest s x := by
  induction s.turbines with
  | nil => rfl
  | cons x l ih =>
    simp only [List.countP_cons]
    have : ∀ b : Bool, (if (b && x.countsFaulted) = true then 1 else 0) + (if (b && countsSettled s x) = true then 1 else 0) =
        if (b && atRest s x) = true then 1 else 0 := fun b => by
      cases b with
      | false => rfl
      | true =>
        unfold countsSettled Turbine.countsFaulted atRest
        cases x.live.move == MoveState.idle <;> cases x.live.fault <;> simp
    have := this (x.config.row == r)
    omega

/-- The fresh step of a row is complete exactly when every member is at rest. -/
theorem countedStep_complete {s : State} (h : RowTableOk s) {r : Nat} (hr : r ≤ 15) :
    (s.countedStep r).complete = s.turbines.all fun x => x.config.row != r || atRest s x := by
  have hc : (s.countedStep r).complete = decide ((s.turbines.countP fun x => x.config.row == r) =
      s.turbines.countP fun x => x.config.row == r && atRest s x) := by
    rw [← countP_atRest, ← length_members h hr]
    simp only [State.countedStep, State.countIn, NeutralStep.tallied, NeutralStep.complete, countOf_members_eq h]
    rw [Bool.eq_iff_iff, beq_iff_eq, decide_eq_true_eq]
    omega
  rw [hc]
  clear hc h
  induction s.turbines with
  | nil => rfl
  | cons x l ih =>
    have hle : (l.countP fun x => x.config.row == r && atRest s x) ≤ l.countP fun x => x.config.row == r :=
      List.countP_mono_left fun y _ hy => (Bool.and_eq_true _ _ ▸ hy).1
    rw [List.all_cons, ← ih, List.countP_cons, List.countP_cons, Bool.eq_iff_iff]
    simp only [Bool.and_eq_true, decide_eq_true_eq, Bool.or_eq_true, bne_iff_ne, beq_iff_eq]
    by_cases e : x.config.row = r
    · by_cases ha : atRest s x = true
      · simp [e, ha]
      · simp [e, ha]
        omega
    · simp [e]

theorem countedStep_fields {s : State} (h : RowTableOk s) {r : Nat} (hr : r ≤ 15) :
    (s.countedStep r).row = r ∧ (s.countedStep r).needed = (s.turbines.countP fun x => x.config.row == r) ∧
      (s.countedStep r).faulted = (s.turbines.countP fun x => x.config.row == r && x.live.move == .idle && x.live.fault) ∧
      (s.countedStep r).settled = (s.turbines.countP fun x => x.config.row == r && atRest s x && !x.live.fault) ∧
      (s.countedStep r).stalled = 0 ∧ (s.countedStep r).cancelled = 0 := by
  have hf : s.countOf (s.members r) Turbine.countsFaulted =
      s.turbines.countP fun x => x.config.row == r && x.live.move == .idle && x.live.fault := by
    simp only [countOf_members_eq h, Turbine.countsFaulted, Bool.and_assoc]
  have hs : s.countOf (s.members r) (countsSettled s) = s.turbines.countP fun x => x.config.row == r && atRest s x && !x.live.fault := by
    simp only [countOf_members_eq h, countsSettled, Bool.and_assoc]
  exact ⟨rfl, (Nat.zero_add _).trans (length_members h hr), (Nat.zero_add _).trans hf, (Nat.zero_add _).trans hs, rfl, rfl⟩

/-! ### The turbines -/

/-- A turbine of a named row without a live neutral step, before its members are driven: idle, or it waits or moves for a LOW step. -/
theorem Core.move_of_not_live {s : State} (h : Core s) {x : Turbine} (hx : x ∈ s.turbines) (hl : ¬LiveAt s x.config.row) :
    (x.live.move = .moving ∧ x.live.slot = some .low) ∨ (x.live.move ≠ .moving ∧ x.live.move ≠ .retarget ∧ x.live.slot = none) := by
  have hno : ∀ q, x.live.owner ≠ some (.neutral q) := fun q ho => by
    obtain ⟨e, hb⟩ := h.books.owners x hx _ ho
    exact hl ((liveAt_iff_busy h).2 (e ▸ hb.busy))
  rcases Turbine.handled_iff.1 (h.books.handled x hx) with ⟨hm, hs, -⟩ | ⟨o, ho, -, ⟨hm, hs⟩ | ⟨hm, hs⟩ | ⟨-, -, q, rfl⟩⟩
  · exact .inr ⟨by simp [hm], by simp [hm], hs⟩
  · exact .inr ⟨by simp [hm], by simp [hm], hs⟩
  · cases o with
    | neutral q => exact absurd ho (hno q)
    | low n q => exact .inl ⟨hm, hs⟩
  · exact absurd ho (hno q)

/-- A turbine that is driven to 0, with the frames of the event's end placed (R125, R130, R137, R138). -/
theorem Granted.drivenToZero {x y : Turbine} {r : Nat}
    (hm : (x.live.move = .moving ∧ x.live.slot = some .low) ∨ (x.live.move ≠ .moving ∧ x.live.move ≠ .retarget ∧ x.live.slot = none))
    (h : Granted { x with live := x.live.driven r } y) : DrivenToZero r x y := by
  have ho : (x.live.driven r).owner = some (.neutral r) := by unfold Live.driven; split <;> rfl
  have ht : (x.live.driven r).target = some 0 := by unfold Live.driven; split <;> rfl
  have hst : (x.live.driven r).stalled = x.live.stalled := by unfold Live.driven; split <;> rfl
  have hrep : Turbine.reported { x with live := x.live.driven r } = x.reported := by unfold Live.driven; split <;> rfl
  rcases h with rfl | ⟨-, c, g, rfl, hc⟩
  · refine ⟨hrep, hst, ho, ht, ?_⟩
    rcases hm with ⟨hm, -⟩ | ⟨hm, -, hs⟩
    · exact .inr (.inl (by simp [Live.driven, hm, Live.retargeted]))
    · exact .inl (by simp [Live.driven, hm, Live.request, hs])
  · obtain ⟨rfl, rfl⟩ := hc r ho
    exact ⟨hrep, hst, ho, ht, .inr (.inr ⟨rfl, rfl, rfl, rfl⟩)⟩

theorem Granted.fixed {x y : Turbine} (h : Granted x y) : y.node = x.node ∧ y.config = x.config ∧ y.live.owner = x.live.owner ∧
    y.live.target = x.live.target ∧ (x.live.move = .idle → y = x) ∧ (y.live.move = .queued → y = x) := by
  rcases h with rfl | ⟨hm, c, g, rfl, -⟩
  · exact ⟨rfl, rfl, rfl, rfl, fun _ => rfl, fun _ => rfl⟩
  · exact ⟨rfl, rfl, rfl, rfl, fun e => (by rw [e] at hm; simp at hm), fun e => (by cases e)⟩

end Sys2Proof.Machine

/-! The neutral context and the turbines at the end of a NEUTRAL request (R151, R152, R154). -/

namespace Sys2Proof.Machine

theorem rows_of_advances {l m : List NeutralStep} (h : List.Forall₂ Advances l m) : (m.map fun k => k.row) = l.map fun k => k.row := by
  induction h with
  | nil => rfl
  | cons a _ ih => rw [List.map_cons, List.map_cons, ih, a.1]

theorem mem_of_advances {l m : List NeutralStep} (h : List.Forall₂ Advances l m) {k : NeutralStep} (hk : k ∈ m) : ∃ k0 ∈ l, Advances k0 k := by
  induction h with
  | nil => cases hk
  | cons a _ ih =>
    rcases List.mem_cons.1 hk with rfl | hk
    · exact ⟨_, List.mem_cons_self, a⟩
    · obtain ⟨k0, h0, h1⟩ := ih hk
      exact ⟨k0, List.mem_cons_of_mem _ h0, h1⟩

/-- What a request's end is read from: the rows of the request, as the model has handled them, and the end of its event. -/
structure Requested (S : Nat → Prop) (named : Nat → Bool) (rs : List Nat) (s u t : State) : Prop where
  base : Core s
  led : Led S s rs u
  masked : ∀ r ∈ rs, u.masked r = true
  named : ∀ r, named r = true ↔ r ∈ rs
  small : ∀ r ∈ rs, r ≤ 15
  done : Concluded u t

section
variable {S : Nat → Prop} {named : Nat → Bool} {rs : List Nat} {s u t : State} (h : Requested S named rs s u t)
include h

/-- The fresh step of a row is not DONE while a member is not at rest. -/
theorem Requested.fresh_done {r : Nat} (hr : r ∈ rs) (b : Bool) : ((s.countedStep r).decide b).state =
    if s.turbines.all fun x => x.config.row != r || atRest s x then .done else if b then .releasing else .moving := by
  rw [NeutralStep.decide, countedStep_complete h.base.table (h.small r hr)]

/-- The context stays at work exactly while one of its steps is not DONE. -/
theorem Requested.atWork : (∃ k ∈ u.neutral.steps, k.state ≠ .done) ↔ staysAtWork s named = true := by
  have hfresh : ∀ r ∈ rs, ∀ b, ((s.countedStep r).decide b).state ≠ .done ↔ ∃ x ∈ s.turbines, x.config.row = r ∧ atRest s x = false :=
    fun r hr b => by
      rw [h.fresh_done hr]
      by_cases ha : (s.turbines.all fun x => x.config.row != r || atRest s x) = true
      · rw [if_pos ha]
        simp only [List.all_eq_true, Bool.or_eq_true, bne_iff_ne] at ha
        refine ⟨fun e => absurd rfl e, fun ⟨x, hx, hrow, hn⟩ => ?_⟩
        rcases ha x hx with e | e
        · exact absurd hrow e
        · rw [hn] at e; cases e
      · rw [if_neg ha]
        simp only [List.all_eq_true, Bool.or_eq_true, bne_iff_ne, not_forall, not_or, Decidable.not_not, Bool.not_eq_true] at ha
        obtain ⟨x, hx, hrow, hn⟩ := ha
        exact ⟨fun _ => ⟨x, hx, hrow, hn⟩, fun _ => by cases b <;> simp⟩
  simp only [staysAtWork, Bool.or_eq_true, List.any_eq_true, bne_iff_ne, Bool.and_eq_true, Bool.not_eq_true']
  constructor
  · rintro ⟨k, hk, hd⟩
    rcases (h.led.steps k).1 hk with ⟨hks, -⟩ | ⟨r, hr, -, b, -, rfl⟩
    · exact .inl ⟨k, hks, hd⟩
    · obtain ⟨x, hx, hrow, hn⟩ := (hfresh r hr b).1 hd
      exact .inr ⟨x, hx, (h.named _).2 (hrow ▸ hr), hn⟩
  · rintro (⟨k, hk, hd⟩ | ⟨x, hx, hnm, hn⟩)
    · exact ⟨k, (h.led.steps k).2 (.inl ⟨hk, .inr ⟨k, hk, rfl, hd⟩⟩), hd⟩
    · have hr := (h.named _).1 hnm
      by_cases hl : LiveAt s x.config.row
      · obtain ⟨k, hk, hrow, hd⟩ := hl
        exact ⟨k, (h.led.steps k).2 (.inl ⟨hk, .inr ⟨k, hk, rfl, hd⟩⟩), hd⟩
      · by_cases hq : QueuedFor u x.config.row
        · exact ⟨_, (h.led.steps _).2 (.inr ⟨_, hr, hl, true, by simpa using hq, rfl⟩), (hfresh _ hr _).2 ⟨x, hx, rfl, hn⟩⟩
        · exact ⟨_, (h.led.steps _).2 (.inr ⟨_, hr, hl, false, by simpa using hq, rfl⟩), (hfresh _ hr _).2 ⟨x, hx, rfl, hn⟩⟩

/-- The rows of the context's steps. -/
theorem Requested.rows : (u.neutral.steps.map fun k => k.row) =
    (List.range 16).filter fun r => named r || s.neutral.steps.any fun k => k.row == r := by
  obtain ⟨hsort, h15⟩ := h.led.gaining.core.rows
  refine hsort.eq_of_mem_iff (List.pairwise_lt_range.filter _) fun r => ?_
  simp only [List.mem_map, List.mem_filter, List.mem_range, Bool.or_eq_true, List.any_eq_true, beq_iff_eq, h.named]
  constructor
  · rintro ⟨k, hk, rfl⟩
    refine ⟨Nat.lt_succ_of_le (h15 k hk), ?_⟩
    rcases (h.led.steps k).1 hk with ⟨hks, -⟩ | ⟨r, hr, -, b, -, rfl⟩
    · exact .inr ⟨k, hks, rfl⟩
    · exact .inl hr
  · rintro ⟨-, hr⟩
    by_cases hin : r ∈ rs ∧ ¬LiveAt s r
    · by_cases hq : QueuedFor u r
      · exact ⟨_, (h.led.steps _).2 (.inr ⟨r, hin.1, hin.2, true, by simpa using hq, rfl⟩), rfl⟩
      · exact ⟨_, (h.led.steps _).2 (.inr ⟨r, hin.1, hin.2, false, by simpa using hq, rfl⟩), rfl⟩
    · have hold : ∃ k ∈ s.neutral.steps, k.row = r ∧ (r ∉ rs ∨ LiveAt s r) := by
        by_cases hrs : r ∈ rs
        · have hl : LiveAt s r := Classical.byContradiction fun hl => hin ⟨hrs, hl⟩
          obtain ⟨k, hk, hrow, hd⟩ := hl
          exact ⟨k, hk, hrow, .inr ⟨k, hk, hrow, hd⟩⟩
        · obtain ⟨k, hk, hrow⟩ := hr.resolve_left hrs
          exact ⟨k, hk, hrow, .inl hrs⟩
      obtain ⟨k, hk, rfl, ho⟩ := hold
      exact ⟨k, (h.led.steps k).2 (.inl ⟨hk, ho⟩), rfl⟩

/-! ### The turbines -/

/-- A turbine of a named row, as the event leaves it. -/
theorem Requested.turbine {x : Turbine} (hx : x ∈ s.turbines) (hn : named x.config.row = true) :
    ∃ y ∈ t.turbines, Granted (s.ledTurbine rs x) y := by
  have hr := (h.named _).1 hn
  refine h.done.turbines _ (by rw [h.led.turbines]; exact List.mem_map_of_mem hx) ?_
  rw [(ledTurbine_fixed s rs x).1]
  exact h.masked _ hr

theorem Requested.ledTurbine {x : Turbine} (hn : named x.config.row = true) : s.ledTurbine rs x =
    if s.liveAt x.config.row || atRest s x then x else { x with live := x.live.driven x.config.row } := by
  have hr := (h.named _).1 hn
  cases hl : s.liveAt x.config.row <;> cases ha : atRest s x <;> simp [State.ledTurbine, State.drivenAt, hr, hl, ha]

/-- What each turbine of a named row becomes. -/
theorem Requested.turbines {x : Turbine} (hx : x ∈ s.turbines) (hn : named x.config.row = true) : ∃ y ∈ t.turbines, y.node = x.node ∧
    (¬LiveAt s x.config.row → atRest s x = true → y = x) ∧
    (¬LiveAt s x.config.row → atRest s x = false → DrivenToZero x.config.row x y) ∧
    (LiveAt s x.config.row → y.live.owner = x.live.owner ∧ y.live.target = x.live.target) := by
  obtain ⟨y, hy, g⟩ := h.turbine hx hn
  refine ⟨y, hy, g.fixed.1.trans (ledTurbine_fixed s rs x).2, fun hl ha => ?_, fun hl ha => ?_, fun hl => ?_⟩
  · rw [h.ledTurbine hn, ha, Bool.or_true, if_pos rfl] at g
    have hidle : x.live.move = .idle := by
      by_contra hm
      rw [not_atRest hm] at ha
      cases ha
    exact g.fixed.2.2.2.2.1 hidle
  · rw [h.ledTurbine hn, (s.not_liveAt_iff _).2 hl, ha, if_neg (by simp)] at g
    exact g.drivenToZero (h.base.move_of_not_live hx hl)
  · rw [h.ledTurbine hn, (s.liveAt_iff _).2 hl, Bool.true_or, if_pos rfl] at g
    exact ⟨g.fixed.2.2.1, g.fixed.2.2.2.1⟩

/-- A queued turbine of a named row without a live step waits for the fresh step. -/
theorem Requested.queued {y : Turbine} (hy : y ∈ t.turbines) (hn : named y.config.row = true) (hl : ¬LiveAt s y.config.row)
    (hm : y.live.move = .queued) : y.live.owner = some (.neutral y.config.row) := by
  have hrep := h.done.steady.turbines.symm
  rw [h.led.turbines, List.map_map] at hrep
  obtain ⟨x, hx, e⟩ := List.mem_map.1 (hrep ▸ List.mem_map_of_mem (f := Turbine.reported) hy)
  simp only [Function.comp, Turbine.reported, Prod.mk.injEq, (ledTurbine_fixed s rs x).1, (ledTurbine_fixed s rs x).2] at e
  obtain ⟨enode, econf, -⟩ := e
  rw [← econf] at hn hl ⊢
  obtain ⟨z, hz, ez, h1, h2, -⟩ := h.turbines hx hn
  obtain rfl : z = y := List.inj_on_of_nodup_map h.done.sound.table.nodes_nodup hz hy (ez.trans enode)
  cases ha : atRest s x with
  | true =>
    rw [h1 hl ha] at hm
    rw [not_atRest (by rw [hm]; simp)] at ha
    cases ha
  | false => exact (h2 hl ha).2.2.1

/-! ### The steps -/

/-- The fresh step of a named row (R154). -/
theorem Requested.gainedStep {r : Nat} (hr : r ∈ rs) (hl : ¬LiveAt s r) {b : Bool} (hb : b = true ↔ QueuedFor u r) {k : NeutralStep}
    (hk : k ∈ t.neutral.steps) (ha : Advances ((s.countedStep r).decide b) k) : GainedStep s t k := by
  obtain ⟨e, hstate⟩ := ha
  obtain ⟨frow, fneeded, ffaulted, fsettled, fstalled, fcancelled⟩ := countedStep_fields h.base.table (h.small r hr)
  have hrow : k.row = r := by rw [e]; exact frow
  have hn : named r = true := (h.named r).2 hr
  have hqueueing : Queueing u r := fun k' hk' hr' hs' => by
    rcases (h.led.steps k').1 hk' with ⟨hks, ho | ho⟩ | ⟨r', hr'', -, b', hb', rfl⟩
    · exact absurd hr (hr' ▸ ho)
    · exact absurd (hr' ▸ ho) hl
    · obtain rfl : r' = r := hr'
      rw [h.fresh_done hr] at hs'
      refine (h.led.gaining.core.neutralQueued_iff r').2 (hb'.1 ?_)
      by_contra hc
      rw [Bool.not_eq_true] at hc
      rw [hc] at hs'
      split at hs' <;> simp at hs'
  have hany : (t.turbines.any fun y => y.config.row == r && y.live.move == .queued) = true ↔ k.state = .releasing := by
    constructor
    · intro hq
      simp only [List.any_eq_true, Bool.and_eq_true, beq_iff_eq] at hq
      obtain ⟨y, hy, rfl, hm⟩ := hq
      obtain ⟨-, a, ha, hp⟩ := h.done.sound.books.owners y hy _ (h.queued hy hn hl hm)
      obtain ⟨k', hk', hrow', rfl⟩ := (account_neutral_eq_some h.done.sound.rows.nodup).1 ha
      obtain rfl : k' = k := List.inj_on_of_nodup_map h.done.sound.rows.nodup hk' hk (hrow'.trans hrow.symm)
      rcases hp with hp | ⟨-, hp⟩
      · cases hs : k'.state <;> simp [NeutralStep.account, NeutralState.phase, hs] at hp ⊢
      · exact absurd hm hp
    · intro hs
      obtain ⟨y, hy, hm, ho⟩ := (h.done.sound.neutralQueued_iff r).1 (h.done.queueing r (h.masked r hr) hqueueing k hk hrow hs)
      have := (h.done.sound.books.owners y hy _ ho).1
      simp only [List.any_eq_true, Bool.and_eq_true, beq_iff_eq]
      exact ⟨y, hy, this.symm, hm⟩
  rw [GainedStep, hrow]
  refine ⟨(congrArg NeutralStep.needed e).trans fneeded, (congrArg NeutralStep.faulted e).trans ffaulted,
    (congrArg NeutralStep.settled e).trans fsettled, (congrArg NeutralStep.stalled e).trans fstalled,
    (congrArg NeutralStep.cancelled e).trans fcancelled, ?_⟩
  · rw [h.fresh_done hr] at hstate
    split
    · rename_i hall
      rw [if_pos hall] at hstate
      rcases hstate with hs | ⟨hs, -⟩
      · exact hs
      · cases hs
    · rename_i hall
      rw [if_neg hall] at hstate
      split
      · rename_i hq; exact hany.1 hq
      · rename_i hq
        have hne : k.state ≠ .releasing := fun e => hq (hany.2 e)
        rcases hstate with hs | ⟨-, hs⟩
        · cases b
          · exact hs
          · exact absurd hs hne
        · exact hs

/-- What the request's rows gain (R151, R152, R154). -/
theorem Requested.gains {cause : NeutralCause} (hc : s.neutral.cause = some cause) : Gains s t named cause := by
  refine ⟨h.done.served, fun hw => h.done.cleared fun k hk => ?_, fun hw => ?_, fun x hx hn => h.turbines hx hn⟩
  · by_contra hd
    rw [h.atWork.1 ⟨k, hk, hd⟩] at hw
    cases hw
  · obtain ⟨ha, hcause, hsteps⟩ := h.done.working (h.atWork.2 hw)
    refine ⟨ha, hcause.trans (h.led.cause.trans hc), (rows_of_advances hsteps).trans h.rows, fun k hk => ?_⟩
    obtain ⟨k0, hk0, hadv⟩ := mem_of_advances hsteps hk
    have hrow : k.row = k0.row := by rw [hadv.1]
    rcases (h.led.steps k0).1 hk0 with ⟨hks, ho⟩ | ⟨r, hr, hl, b, hb, rfl⟩
    · refine ⟨fun hn hl => ?_, fun _ => ⟨k0, hks, hadv⟩⟩
      rw [hrow] at hn hl
      rcases ho with ho | ho
      · exact absurd ((h.named _).1 hn) ho
      · exact absurd ho hl
    · have hkr : k.row = r := hrow
      refine ⟨fun _ _ => h.gainedStep hr hl hb hk hadv, fun ho => ?_⟩
      rw [hkr, (h.named r).2 hr] at ho
      rcases ho with ho | ho
      · cases ho
      · exact absurd ho hl

end

end Sys2Proof.Machine

/-! The steps, the skip counter and the divider at the end of a NEUTRAL request (R79, R87, R100, R153). -/

namespace Sys2Proof.Machine

/-! ### The steps -/

theorem gainedStep_terminal (s : State) (r n : Nat) (a : WaveStep) : (s.gainedStep r n a).state.terminal = true := by
  unfold State.gainedStep
  split
  · rfl
  · split
    · rfl
    · rename_i hw hm
      cases hs : a.state <;> simp [hs, StepState.waits, StepState.moves, StepState.terminal] at hw hm ⊢

/-- What a step at a named row becomes. -/
theorem LedGoes.at_named {S : Nat → Prop} {s : State} {rs : List Nat} {n q : Nat} {a b : WaveStep} (h : LedGoes S s rs n q a b) (hq : q ∈ rs) :
    ∃ a', (a' = a ∨ (S q ∧ a.state = .waiting ∧ a' = a.start)) ∧ b = s.gainedStep q n a' := by
  obtain ⟨a', ha, e⟩ := h
  rw [if_pos hq] at e
  exact ⟨a', ha, e⟩

section
variable {S : Nat → Prop} {named : Nat → Bool} {rs : List Nat} {s u t : State} (h : Requested S named rs s u t)
include h

theorem Requested.shaped : Shaped s t := h.led.shaped.trans h.done.shaped

/-- A step at a named row, found at the end of the event. -/
theorem Requested.step {n r : Nat} (hr : r ∈ rs) {a c : WaveStep} (ha : s.step? n r = some a) (hc : t.step? n r = some c) :
    ∃ a', (a' = a ∨ (S r ∧ a.state = .waiting ∧ a' = a.start)) ∧ c = s.gainedStep r n a' := by
  obtain ⟨b, hb, hl⟩ := h.done.goes.kept_from hc
  obtain ⟨a0, ha0, hg⟩ := h.led.goes.kept_from hb
  cases ha.symm.trans ha0
  obtain ⟨a', ha', e⟩ := hg.at_named hr
  exact ⟨a', ha', (hl.terminal (e ▸ gainedStep_terminal s r n a')).trans e⟩

/-- The records at the end of the event are records of the waves before it. -/
theorem Requested.wave {w w' : Wave} (hw : w ∈ s.waves) (hw' : w' ∈ t.waves) (hn : w'.num = w.num) :
    w'.steps.map (fun st => st.row) = w.steps.map fun st => st.row := by
  obtain ⟨w0, hw0, e⟩ := List.mem_map.1 (h.shaped.subset (List.mem_map_of_mem (f := Wave.shape) hw'))
  simp only [Wave.shape, Prod.mk.injEq] at e
  obtain rfl := List.inj_on_of_nodup_map h.base.waves.nums_nodup hw0 hw (e.1.trans hn)
  exact e.2.2.symm

/-- What the steps at the named rows become (R99, R100). -/
theorem Requested.steps {w : Wave} (hw : w ∈ s.waves) {st : WaveStep} (hst : st ∈ w.steps) (hn : named st.row = true) {w' : Wave}
    (hw' : w' ∈ t.waves) (hnum : w'.num = w.num) : ∃ st' ∈ w'.steps, st'.row = st.row ∧ (st.state.unreleased → st'.state = .skipped) ∧
      (st.state.active → st'.state = .done ∧ st'.set = some st.hold ∧ st'.superseded = st.superseded + owned s (.low w.num st.row)) ∧
      (st.state.terminal = true → st' = st) := by
  have hrow : st.row ∈ w'.steps.map fun x => x.row := h.wave hw hw' hnum ▸ List.mem_map_of_mem hst
  obtain ⟨st', hst', er⟩ := List.mem_map.1 hrow
  have hc := h.done.sound.waves.step?_of_mem hw' hst'
  rw [hnum, er] at hc
  obtain ⟨a', ha, e⟩ := h.step ((h.named _).1 hn) (h.base.waves.step?_of_mem hw hst) hc
  refine ⟨st', hst', er, fun hu => ?_, fun hact => ?_, fun hterm => ?_⟩
  · have hwaits : a'.state.waits = true := by
      rcases ha with rfl | ⟨-, -, rfl⟩
      · exact (StepState.waits_iff _).2 hu
      · rfl
    rw [e, State.gainedStep, if_pos hwaits]
    rfl
  · have hm := (StepState.moves_iff _).2 hact
    have hnw : ¬st.state.waits = true := fun hc => by
      rcases (StepState.waits_iff _).1 hc with e | e <;> rw [e] at hm <;> cases hm
    rcases ha with rfl | ⟨-, hwait, -⟩
    · rw [e, State.gainedStep, if_neg hnw, if_pos hm]
      exact ⟨rfl, rfl, rfl⟩
    · rw [hwait] at hm; cases hm
  · rcases ha with rfl | ⟨-, hwait, -⟩
    · rw [e, gainedStep_of_terminal hterm]
    · rw [hwait] at hterm; cases hterm

end

/-! ### The skip counter -/

theorem countP_of_nodup {α : Type} {key : α → Nat} {l : List α} (hn : (l.map key).Nodup) (r : Nat) (p : α → Bool) :
    l.countP (fun a => key a == r && p a) = (l.any fun a => key a == r && p a).toNat := by
  induction l with
  | nil => rfl
  | cons a l ih =>
    rw [List.map_cons, List.nodup_cons] at hn
    rw [List.countP_cons, List.any_cons, ih hn.2]
    by_cases e : key a = r
    · have hrest : (l.any fun a => key a == r && p a) = false := List.any_eq_false.2 fun b hb hc => by
        simp only [Bool.and_eq_true, beq_iff_eq] at hc
        exact hn.1 (e ▸ hc.1 ▸ List.mem_map_of_mem hb)
      rw [hrest]
      cases p a <;> simp [e]
    · simp only [beq_eq_false_iff_ne.2 e, Bool.false_and, Bool.false_or, Bool.false_eq_true, if_false, Nat.add_zero]

/-- The steps counted by rows are the steps at those rows. -/
theorem sum_countP_rows {α : Type} (key : α → Nat) (l : List α) (p : α → Bool) {rs : List Nat} (hn : rs.Nodup) :
    (rs.map fun r => l.countP fun a => key a == r && p a).sum = l.countP fun a => rs.contains (key a) && p a := by
  induction rs with
  | nil => simp
  | cons r rs ih =>
    rw [List.nodup_cons] at hn
    rw [List.map_cons, List.sum_cons, ih hn.2]
    have hpt : ∀ a, (if (key a == r && p a) = true then 1 else 0) + (if (rs.contains (key a) && p a) = true then 1 else 0) =
        if ((r :: rs).contains (key a) && p a) = true then 1 else 0 := fun a => by
      rw [List.contains_cons]
      by_cases e : key a = r
      · have : rs.contains r = false := by simpa using hn.1
        rw [e, this]
        cases p a <;> simp
      · rw [beq_eq_false_iff_ne.2 e]
        simp
    clear ih
    induction l with
    | nil => rfl
    | cons a l ihl =>
      have := hpt a
      rw [List.countP_cons, List.countP_cons, List.countP_cons]
      omega

theorem length_unreleasedAt {s : State} (h : WavesOk s) (r : Nat) : (s.unreleasedAt r).length =
    (s.waves.map fun w => w.steps.countP fun st => st.row == r && st.state.waits).sum := by
  have key : ∀ l : List Wave, (∀ w ∈ l, w ∈ s.waves) → ((l.filter fun w => w.running && w.steps.any fun st => st.row == r && st.state.waits).map
      fun w => w.num).length = (l.map fun w => w.steps.countP fun st => st.row == r && st.state.waits).sum := fun l hl => by
    induction l with
    | nil => rfl
    | cons w l ih =>
      have hw := hl w List.mem_cons_self
      rw [List.map_cons, List.sum_cons, ← ih fun x hx => hl x (List.mem_cons_of_mem _ hx),
        countP_of_nodup (key := fun st : WaveStep => st.row) (h.rows_nodup hw) r]
      have hrun : (w.running && w.steps.any fun st => st.row == r && st.state.waits) = w.steps.any fun st => st.row == r && st.state.waits := by
        cases hr : w.running with
        | true => rfl
        | false => rw [(h.2.2.2.2.2.2 w hw).2.2 hr]; rfl
      rw [List.filter_cons, hrun]
      cases w.steps.any fun st => st.row == r && st.state.waits with
      | true => simp [Nat.add_comm]
      | false => simp
  exact key s.waves fun _ => id

theorem sum_exchange {α β : Type} (f : α → β → Nat) (l : List α) (m : List β) :
    (l.map fun a => (m.map fun b => f a b).sum).sum = (m.map fun b => (l.map fun a => f a b).sum).sum := by
  induction l with
  | nil => simp
  | cons a l ih =>
    rw [List.map_cons, List.sum_cons, ih, ← List.sum_map_add]
    rfl

/-- The steps that a request skips, by rows and by waves. -/
theorem sum_unreleasedAt {s : State} (h : WavesOk s) {rs : List Nat} (hn : rs.Nodup) : (rs.map fun r => (s.unreleasedAt r).length).sum =
    (s.waves.map fun w => w.steps.countP fun st => rs.contains st.row && st.state.waits).sum := by
  simp only [length_unreleasedAt h]
  rw [sum_exchange]
  simp only [sum_countP_rows (fun st : WaveStep => st.row) _ _ hn]

/-! ### Deadline actions and the divider -/

theorem noneDue_of_noneAtP {s : State} (h : NoneAtP s) : NoneDue s := fun n r st hst => by
  obtain ⟨w, hw, -, hm, -⟩ := State.step?_mem hst
  exact h w hw st hm

theorem unforced_of_waiting {s : State} (h : WaitingUnforced s) : Unforced s := fun n r st hst hw => by
  obtain ⟨w, hw', -, hm, -⟩ := State.step?_mem hst
  exact h w hw' st hm hw

theorem WaveStep.NotDue.of_terminal {a : WaveStep} (h : a.state.terminal = true) : a.NotDue := fun e => by
  rw [e] at h
  cases h

theorem Led.noneDue {S : Nat → Prop} {s u : State} {rs : List Nat} (h : Led S s rs u) (hn : NoneDue s) : NoneDue u := fun n r b hb => by
  obtain ⟨a, ha, a', ha', e⟩ := h.goes.kept_from hb
  rw [e]
  split
  · exact .of_terminal (gainedStep_terminal s r n a')
  · rcases ha' with rfl | ⟨-, hw, rfl⟩
    · exact hn n r _ ha
    · exact (late_start hw).notDue (hn n r a ha)

theorem awaitsHold_of_awaitsAt {t : State} {n r : Nat} (h : AwaitsAt t n r) : awaitsHold t n r = true := by
  obtain ⟨st, hst, ha⟩ := h
  obtain ⟨w, hw, hn, hm, hr⟩ := State.step?_mem hst
  simp only [awaitsHold, List.any_eq_true, Bool.and_eq_true, beq_iff_eq]
  exact ⟨w, hw, hn, st, hm, ⟨hr, ha.state⟩, ha.cmpA⟩

/-- The hold times that a row withdraws are the pending ones there. -/
theorem skipHolds_eq {s : State} (h : WavesOk s) (n m : Nat) :
    pendingHold s (.hold n m) = (s.step? n m).any fun a => a.state.waits && a.cmpA == .pending := by
  rw [Bool.eq_iff_iff]
  simp only [pendingHold, List.any_eq_true, Bool.and_eq_true, beq_iff_eq, Option.any_eq_true, StepState.waits, Bool.or_eq_true]
  constructor
  · rintro ⟨w, hw, ⟨-, rfl⟩, st, hst, ⟨rfl, hs⟩, hc⟩
    exact ⟨st, h.step?_of_mem hw hst, hs, hc⟩
  · rintro ⟨st, hst, hs, hc⟩
    obtain ⟨w, hw, hn, hm, hr⟩ := State.step?_mem hst
    refine ⟨w, hw, ⟨?_, hn⟩, st, hm, ⟨hr, hs⟩, hc⟩
    cases hrun : w.running with
    | true => rfl
    | false =>
      rw [(h.2.2.2.2.2.2 w hw).2.2 hrun] at hm
      cases hm

theorem any_rowWithdraws {s : State} (h : WavesOk s) {named : Nat → Bool} {rs : List Nat} (hn : ∀ r, named r = true ↔ r ∈ rs) :
    (fun q => rs.any fun r => s.rowWithdraws r q) = neutralWithdraws s named := by
  funext q
  rw [Bool.eq_iff_iff]
  cases q with
  | hold n m =>
    simp only [neutralWithdraws, skipHolds_eq h, State.rowWithdraws, State.skipHolds, List.any_eq_true, Bool.and_eq_true, beq_iff_eq, hn]
    exact ⟨fun ⟨r, hr, e, hp⟩ => ⟨e ▸ hr, hp⟩, fun ⟨hr, hp⟩ => ⟨m, hr, rfl, hp⟩⟩
  | deadline n =>
    simp only [neutralWithdraws, State.rowWithdraws, Turbine.moves, List.any_eq_true, Bool.and_eq_true, beq_iff_eq, hn]
    constructor
    · rintro ⟨r, hr, x, hx, ⟨hnode, rfl⟩, hm, hs⟩
      exact ⟨x, hx, ⟨⟨hnode, hr⟩, hm⟩, hs⟩
    · rintro ⟨x, hx, ⟨⟨hnode, hr⟩, hm⟩, hs⟩
      exact ⟨_, hr, x, hx, ⟨hnode, rfl⟩, hm, hs⟩

section
variable {S : Nat → Prop} {named : Nat → Bool} {rs : List Nat} {s u t : State} (h : Requested S named rs s u t)
include h

/-- The steps that the request skips are counted (R87). -/
theorem Requested.skips (hnd : rs.Nodup) (hn : NoneAtP s) : t.counters.skips = s.counters.skips + BitVec.ofNat 32
    (s.waves.map fun w => w.steps.countP fun st => named st.row && (st.state == .waiting || st.state == .holding)).sum := by
  have hname : ∀ r, rs.contains r = named r := fun r => by
    rw [Bool.eq_iff_iff, h.named]
    simp
  rw [(h.done.places (h.led.noneDue (noneDue_of_noneAtP hn))).skips, h.led.skips, sum_unreleasedAt h.base.waves hnd]
  simp only [hname]
  rfl

/-- The divider loses the requests of what the request ends, and gains hold times that are awaited and deadlines (R79, R137). -/
theorem Requested.dividerAdds (hS : ∀ r ∈ rs, ¬S r) (hn : NoneAtP s) (hu : WaitingUnforced s)
    (hd : s.divider.stage = none → s.divider.list = []) : DividerAdds s t (neutralWithdraws s named) := by
  have hu' := unforced_of_waiting hu
  obtain ⟨p, hp, op⟩ := h.led.edits hS hu' hd
  have hpl := h.done.places (h.led.noneDue (noneDue_of_noneAtP hn))
  obtain ⟨p', hp', op'⟩ := hpl.adds (hu'.tracked h.led.tracks.goes fun _ _ _ _ e => e.waiting)
  rw [any_rowWithdraws h.base.waves h.named] at hp
  refine ⟨p ++ p', by rw [hp', hp, List.foldl_append], fun e he => ?_⟩
  rcases List.mem_append.1 he with he | he
  · obtain ⟨n, q, hq, -, ha⟩ := op e he
    rw [hq]
    exact awaitsHold_of_awaitsAt (ha.goes h.done.goes)
  · have ho := op' e he
    cases hq : e.requester with
    | hold n q =>
      simp only [Owed, hq] at ho
      exact awaitsHold_of_awaitsAt ho
    | deadline n => trivial

end

end Sys2Proof.Machine

/-! What the rows of a NEUTRAL request leave alone, and the masks that they set (R153). -/

namespace Sys2Proof.Machine

/-- What an event leaves alone but for the masks. -/
def Beside (s t : State) : Prop := Steady { s with rows := t.rows } t

theorem Beside.of_steady {s t : State} (h : Steady s t) : Beside s t := { h with rows := rfl }

theorem Beside.refl (s : State) : Beside s s := Steady.refl s

theorem Beside.trans {s t u : State} (h : Beside s t) (k : Beside t u) : Beside s u := by
  have h1 : Steady { s with rows := u.rows } { t with rows := u.rows } := { h with rows := rfl }
  exact steady_propagates.trans h1 k

theorem beside_setMask (s : State) (r : Nat) (b : Bool) : Beside s (s.setMask r b) := { Steady.refl s with rows := rfl }

/-- What the rows of a request keep, row by row. -/
theorem neutralRows_keep {R : State → State → Prop} (refl : ∀ s, R s s) (trans : ∀ {s t u}, R s t → R t u → R s u)
    (row : ∀ s r, r < 16 → R s (s.neutralRow r)) (rs : List Nat) (hrs : ∀ r ∈ rs, r < 16) (s : State) : R s (s.neutralRows rs) := by
  induction rs generalizing s with
  | nil => exact refl s
  | cons r rs ih =>
    exact trans (row s r (hrs r List.mem_cons_self)) (ih (fun q hq => hrs q (List.mem_cons_of_mem _ hq)) _)

theorem steady_gained (s : State) (r : Nat) : Steady (s.setMask r true) (s.neutralRow r) :=
  steady_propagates.trans (steady_propagates.gainNeutral _ r) (steady_propagates.completeWaves _)

theorem beside_neutralRow (s : State) (r : Nat) : Beside s (s.neutralRow r) := (beside_setMask s r true).trans (.of_steady (steady_gained s r))

theorem beside_neutralRows {rs : List Nat} (hrs : ∀ r ∈ rs, r < 16) (s : State) : Beside s (s.neutralRows rs) :=
  neutralRows_keep Beside.refl Beside.trans (fun s r _ => beside_neutralRow s r) rs hrs s

theorem quiet_neutralRows {rs : List Nat} (hrs : ∀ r ∈ rs, r < 16) (s : State) : (s.neutralRows rs).quiet = s.quiet :=
  neutralRows_keep (R := fun s t => t.quiet = s.quiet) (fun _ => rfl) (fun h k => k.trans h)
    (fun s r _ => quiet_propagates.trans (quiet_propagates.gainNeutral (s.setMask r true) r) (quiet_propagates.completeWaves _)) rs hrs s

theorem queueU_neutralRows {rs : List Nat} (hrs : ∀ r ∈ rs, r < 16) (s : State) : ∃ rest, (s.neutralRows rs).queueU = s.queueU ++ rest :=
  neutralRows_keep (R := fun s t => ∃ rest, t.queueU = s.queueU ++ rest) queueU_propagates.refl queueU_propagates.trans
    (fun s r _ => queueU_propagates.trans (queueU_propagates.gainNeutral (s.setMask r true) r) (queueU_propagates.completeWaves _)) rs hrs s

theorem members_neutralRows {rs : List Nat} (hrs : ∀ r ∈ rs, r < 16) (s : State) (q : Nat) : (s.neutralRows rs).members q = s.members q :=
  neutralRows_keep (R := fun s t => t.members q = s.members q) (fun _ => rfl) (fun h k => k.trans h)
    (fun s r hr => by
      rw [State.members, State.row, (steady_gained s r).rows]
      exact State.members_setMask s r q true hr) rs hrs s

theorem masked_neutralRow (s : State) {r : Nat} (hr : r < 16) (q : Nat) : (s.neutralRow r).masked q = (s.masked q || q == r) := by
  rw [State.masked, State.row, (steady_gained s r).rows]
  refine (State.masked_setMask s r q true hr).trans ?_
  by_cases e : q = r <;> simp [e]

theorem masked_neutralRows {rs : List Nat} (hrs : ∀ r ∈ rs, r < 16) (s : State) (q : Nat) :
    (s.neutralRows rs).masked q = (s.masked q || rs.contains q) := by
  induction rs generalizing s with
  | nil => simp [State.neutralRows]
  | cons r rs ih =>
    rw [State.neutralRows_eq, List.foldl_cons, ← State.neutralRows_eq, ih (fun q hq => hrs q (List.mem_cons_of_mem _ hq)),
      masked_neutralRow s (hrs r List.mem_cons_self), List.contains_cons, Bool.or_assoc]

end Sys2Proof.Machine

/-! A single step skipped, exactly: its successor's start, its notice, and the divider (R77, R79, R87). -/

namespace Sys2Proof.Machine

/-- A step's successor stands at another row. -/
theorem Wave.successor_row_ne {w : Wave} (hn : (w.steps.map fun st => st.row).Nodup) {r : Nat} {nxt : WaveStep} (h : w.successor r = some nxt) :
    nxt.row ≠ r := by
  have hl : w.linked r = true := by
    unfold Wave.successor at h
    split at h
    · assumption
    · cases h
  rw [Wave.successor, if_pos hl] at h
  have hmem := List.mem_of_find?_eq_some h
  unfold stepsAfter at hmem
  have hsub : (w.steps.dropWhile fun st => st.row != r).Sublist w.steps := List.dropWhile_sublist _
  have hnd := hn.sublist (hsub.map fun st => st.row)
  have hhead := List.head?_dropWhile_not (fun st : WaveStep => st.row != r) w.steps
  cases hd : w.steps.dropWhile fun st => st.row != r with
  | nil => rw [hd] at hmem; cases hmem
  | cons a l =>
    rw [hd] at hmem hnd hhead
    rw [List.map_cons, List.nodup_cons] at hnd
    have ha : a.row = r := by simpa using hhead
    rw [List.tail_cons] at hmem
    intro e
    refine hnd.1 ?_
    rw [ha, ← e]
    exact List.mem_map_of_mem hmem

/-- No RUNNING wave is finished, so that none completes. -/
theorem completeWaves_of_noneFinished {s : State} (h : NoneFinished s) : s.completeWaves = s := by
  have : s.waves.filter Wave.finished = [] := List.filter_eq_nil_iff.2 fun w hw hf => by
    simp only [Wave.finished, Bool.and_eq_true, List.all_eq_true] at hf
    obtain ⟨st, hst, ht⟩ := h w hw hf.1
    rw [hf.2 st hst] at ht
    cases ht
  rw [State.completeWaves, this]
  rfl

/-- A state with other waves whose live steps stay live has none finished either. -/
theorem NoneFinished.of_goes {s t : State} (ht : WavesOk t) (hsh : Shaped s t)
    (hlive : ∀ w ∈ s.waves, w.running = true → ∃ st ∈ w.steps, ∃ b, t.step? w.num st.row = some b ∧ b.state.terminal = false) : NoneFinished t := by
  intro w' hw' hrun
  obtain ⟨w, hw, e⟩ := List.mem_map.1 (hsh.subset (List.mem_map_of_mem (f := Wave.shape) hw'))
  simp only [Wave.shape, Prod.mk.injEq] at e
  obtain ⟨st, -, b, hb, hbl⟩ := hlive w hw (e.2.1.trans hrun)
  rw [e.1] at hb
  obtain ⟨w0, hw0, hn, hm, -⟩ := State.step?_mem hb
  obtain rfl := List.inj_on_of_nodup_map ht.nums_nodup hw0 hw' hn
  exact ⟨b, hm, hbl⟩

/-- A step other than the one that ends, and not ended, goes on. -/
theorem Ends.stays {S : Nat → Prop} {s t : State} {n r : Nat} {f : WaveStep → WaveStep} (h : Goes (Ends S n r f) s t) {m q : Nat}
    (hne : ¬(m = n ∧ q = r)) {a : WaveStep} (ha : s.step? m q = some a) (hl : a.state.terminal = false) :
    ∃ b, t.step? m q = some b ∧ b.state.terminal = false ∧ (a.state ≠ .waiting → b = a) := by
  have hg := h m q
  rw [ha] at hg
  have hb : ∀ b, Ends S n r f m q a b → b.state.terminal = false ∧ (a.state ≠ .waiting → b = a) := fun b e => by
    rcases (ends_ne hne).1 e with rfl | ⟨-, -, hw, rfl⟩
    · exact ⟨hl, fun _ => rfl⟩
    · exact ⟨rfl, fun e => absurd hw e⟩
  generalize t.step? m q = y at hg
  cases hg with
  | left e c => rw [(hb _ e).1] at c; cases c
  | kept e => exact ⟨_, rfl, hb _ e⟩

theorem wave?_updStep_self (s : State) (n r : Nat) (g : WaveStep → WaveStep) :
    (s.updStep n r g).wave? n = (s.wave? n).map fun w => w.updStep r g := by
  rw [State.updStep, State.wave?_updWave s n n (fun w => w.updStep r g) fun _ => rfl]
  cases hw : s.wave? n with
  | none => rfl
  | some w => simp [(State.wave?_mem hw).2]

/-- A single step at work is skipped while another of its wave is live. -/
structure Skips (s : State) (w : Wave) (st : WaveStep) : Prop where
  waves : WavesOk s
  wave : w ∈ s.waves
  step : st ∈ w.steps
  unreleased : st.state.unreleased
  other : ∃ o ∈ w.steps, o.row ≠ st.row ∧ o.state.terminal = false
  finished : NoneFinished s

section
variable {s : State} {w : Wave} {st : WaveStep} (h : Skips s w st)
include h

theorem Skips.goes : Goes (Ends AnyRow w.num st.row WaveStep.skip) s (s.skipping w.num st.row) :=
  goes_skipping h.waves (startsAt_any _ _ _)

theorem Skips.noneFinished : NoneFinished (s.skipping w.num st.row) := by
  have hst := h.waves.step?_of_mem h.wave h.step
  have hb : ¬Busy (s.account (.low w.num st.row)) :=
    Settling.not_busy_of_unreleased fun a ha => by cases hst.symm.trans ha; exact h.unreleased
  have hsh : Shaped s (s.skipping w.num st.row) :=
    (tracks_skipped hst h.unreleased).shaped.trans (Settling.trigger (wavesOk_skipped h.waves _ _) _ _).shaped
  refine NoneFinished.of_goes (wavesOk_skipping h.waves _ _) hsh fun w2 hw2 hrun => ?_
  by_cases e : w2 = w
  · subst e
    obtain ⟨o, ho, hne, hl⟩ := h.other
    obtain ⟨b, hb, hbl, -⟩ := Ends.stays h.goes (fun c => hne c.2) (h.waves.step?_of_mem hw2 ho) hl
    exact ⟨o, ho, b, hb, hbl⟩
  · obtain ⟨o, ho, hl⟩ := h.finished w2 hw2 hrun
    have hne : w2.num ≠ w.num := fun c => e (List.inj_on_of_nodup_map h.waves.nums_nodup hw2 h.wave c)
    obtain ⟨b, hb, hbl, -⟩ := Ends.stays h.goes (fun c => hne c.1) (h.waves.step?_of_mem hw2 ho) hl
    exact ⟨o, ho, b, hb, hbl⟩

/-- No wave completes at the skip. -/
theorem Skips.eq (x : SkipReason) : s.skipStep w.num st.row x =
    ((s.skipping w.num st.row).tally fun c => { c with skips := c.skips + 1 }).notify (.stepSkipped w.num st.row x) := by
  rw [State.skipStep_eq]
  exact completeWaves_of_noneFinished h.noneFinished

theorem Skips.waves_eq (x : SkipReason) : (s.skipStep w.num st.row x).waves = (s.skipping w.num st.row).waves := by
  rw [h.eq]
  rfl

/-- The wave of the skipped step, before the trigger. -/
theorem Skips.skipped_wave : ∃ w', (s.skipped w.num st.row).wave? w.num = some w' ∧ w'.num = w.num ∧ w'.sector = w.sector := by
  have hdrop : ∃ w', (s.dropHold w.num st.row).wave? w.num = some w' ∧ w'.num = w.num ∧ w'.sector = w.sector := by
    have hst := h.waves.step?_of_mem h.wave h.step
    by_cases hp : st.cmpA = .pending
    · rw [State.dropHold_of_pending hst hp]
      refine ⟨w.updStep st.row fun x => { x with cmpA := .absent }, ?_, rfl, rfl⟩
      rw [wave?_updStep_self]
      change (s.wave? w.num).map _ = _
      rw [h.waves.wave?_of_mem h.wave]
      rfl
    · rw [State.dropHold_of_not_pending hst hp]
      exact ⟨w, h.waves.wave?_of_mem h.wave, rfl, rfl⟩
  obtain ⟨w', hw', hn, hs⟩ := hdrop
  refine ⟨w'.updStep st.row fun x => { x with state := .skipped, owesTest := false, owesDeadline := false }, ?_, hn, hs⟩
  rw [State.skipped, wave?_updStep_self, hw']
  rfl

/-- The skipped step's successor is the one it had. -/
theorem Skips.skipped_successor {w' : Wave} (hw' : (s.skipped w.num st.row).wave? w.num = some w') :
    w'.successor st.row = w.successor st.row := by
  have hst := h.waves.step?_of_mem h.wave h.step
  have hok := wavesOk_skipped h.waves w.num st.row
  have ht := tracks_skipped hst h.unreleased
  obtain ⟨hm', hn'⟩ := State.wave?_mem hw'
  obtain ⟨w0, hw0, hshape, hframe⟩ := ht.wave h.waves hok hm'
  simp only [Wave.shape, Prod.mk.injEq] at hshape
  obtain rfl := List.inj_on_of_nodup_map h.waves.nums_nodup hw0 h.wave (hshape.1.trans hn')
  have hrow := successor_row w' st.row
  rw [← hframe, ← successor_row w0 st.row] at hrow
  cases hs : w0.successor st.row with
  | none =>
    rw [hs] at hrow
    exact Option.map_eq_none_iff.1 hrow
  | some nxt =>
    rw [hs] at hrow
    obtain ⟨nxt', hs', hr'⟩ := Option.map_eq_some_iff.1 hrow
    have hr' : nxt'.row = nxt.row := hr'
    have hne := Wave.successor_row_ne (h.waves.rows_nodup h.wave) hs
    have h1 := hok.step?_of_mem hm' (Wave.successor_mem hs')
    have h2 := h.waves.step?_of_mem h.wave (Wave.successor_mem hs)
    have hg := goes_skipped s w0.num st.row w0.num nxt.row
    rw [hn', hr'] at h1
    rw [h1, h2] at hg
    cases hg with
    | kept e =>
      rw [if_neg fun c => hne c.2] at e
      rw [hs', e]

/-- A WAITING successor enters HOLDING and places its request (R77). -/
theorem Skips.starts {nxt : WaveStep} (hs : w.successor st.row = some nxt) (hw : nxt.state = .waiting) :
    (s.skipping w.num st.row).step? w.num nxt.row = some nxt.start ∧
      (s.skipping w.num st.row).divider = (s.skipped w.num st.row).divider.place (s.startRequest w nxt) := by
  obtain ⟨w', hw', hn', hsec⟩ := h.skipped_wave
  have hsucc := (h.skipped_successor hw').trans hs
  have hok := wavesOk_skipped h.waves w.num st.row
  rcases (s.skipped w.num st.row).trigger_cases hok w.num st.row with ⟨-, c⟩ | ⟨w2, nxt2, hw2, hs2, -, e⟩
  · exact absurd hw (c w' nxt hw' hsucc)
  · cases hw'.symm.trans hw2
    cases hsucc.symm.trans hs2
    have hst := hok.step?_of_mem (State.wave?_mem hw').1 (Wave.successor_mem hsucc)
    rw [hn'] at hst
    rw [State.skipping, e]
    constructor
    · change ((s.skipped w.num st.row).updStep w.num nxt.row WaveStep.start).step? w.num nxt.row = _
      rw [State.step?_updStep _ w.num nxt.row w.num nxt.row (g := WaveStep.start) fun _ => rfl, if_pos ⟨rfl, rfl⟩, hst]
      rfl
    · change (s.skipped w.num st.row).divider.place _ = _
      congr 1
      have hplan : (s.skipped w.num st.row).planOf w' = s.planOf w := by
        have hp : (s.skipped w.num st.row).plans = s.plans := ((WavesOnly.dropHold s w.num st.row).plans :)
        have hq : (s.skipped w.num st.row).plan? = s.plan? := funext fun k => by simp only [State.plan?, hp]
        simp only [State.planOf, hsec, hq]
      have hf : (s.skipped w.num st.row).filter = s.filter := ((WavesOnly.dropHold s w.num st.row).filter :)
      have hpar : (s.skipped w.num st.row).params = s.params := ((WavesOnly.dropHold s w.num st.row).params :)
      simp only [State.startRequest, hn', hplan, State.uf, hf, hpar]

/-- Without a WAITING successor the trigger does nothing (R81). -/
theorem Skips.idle (hno : ∀ nxt, w.successor st.row = some nxt → nxt.state ≠ .waiting) :
    s.skipping w.num st.row = s.skipped w.num st.row := by
  obtain ⟨w', hw', -, -⟩ := h.skipped_wave
  rcases (s.skipped w.num st.row).trigger_cases (wavesOk_skipped h.waves w.num st.row) w.num st.row with ⟨e, -⟩ | ⟨w2, nxt2, hw2, hs2, hw, -⟩
  · exact e
  · cases hw'.symm.trans hw2
    exact absurd hw (hno nxt2 ((h.skipped_successor hw').symm.trans hs2))

/-- The divider once a single step is skipped (R77, R79). -/
theorem Skips.divider {p : Plan} (hp : w.sector.bind s.plan? = some p) (x : SkipReason) : (s.skipStep w.num st.row x).divider =
    afterTrigger s w p st.row (withdrawn (fun q => st.cmpA == .pending && q == .hold w.num st.row) s.divider) := by
  have hd : (s.skipped w.num st.row).divider = withdrawn (fun q => st.cmpA == .pending && q == .hold w.num st.row) s.divider :=
    divider_dropHold (h.waves.step?_of_mem h.wave h.step)
  have e : (s.skipStep w.num st.row x).divider = (s.skipping w.num st.row).divider := by rw [h.eq]; rfl
  rw [e, ← hd, afterTrigger]
  cases hs : w.successor st.row with
  | none => rw [h.idle fun nxt c => by rw [hs] at c; cases c]
  | some nxt =>
    dsimp only
    split
    · rename_i hw
      rw [(h.starts hs hw).2]
      congr 1
      simp only [State.startRequest, State.planOf, hp, holdRequest]
      rfl
    · rename_i hw
      rw [h.idle fun nxt' c => by rw [hs] at c; cases c; exact hw]

/-- The notice of the skip is the event's only one (R87). -/
theorem Skips.queueU (x : SkipReason) : (s.skipStep w.num st.row x).queueU = (s.notify (.stepSkipped w.num st.row x)).queueU := by
  have hset : ∀ u : State, u.aside = s.aside → u.queueU = s.queueU → ∀ n, ((u.tally fun c => { c with skips := c.skips + 1 }).notify n).queueU =
      (s.notify n).queueU := fun u ha hq n => by
    have hp : u.params = s.params := (congrArg State.params ha :)
    have hsup : u.supervisor = s.supervisor := (congrArg State.supervisor ha :)
    have hsta : u.station = s.station := (congrArg State.station ha :)
    have hnode : u.nodeAddr = s.nodeAddr := (congrArg State.nodeAddr ha :)
    rw [State.notify_eq_noticed, State.notify_eq_noticed]
    simp only [noticed, offered, State.tally, hp, hsup, hsta, hnode, hq]
    split <;> rfl
  rw [h.eq]
  refine hset _ ?_ ?_ _
  · have h1 : WavesOnly s (s.skipped w.num st.row) := (WavesOnly.dropHold s w.num st.row).trans rfl
    exact h1.trans (WavesOnly.trigger _ _ _)
  · rw [State.skipping, queueU_trigger]
    change (s.dropHold w.num st.row).queueU = s.queueU
    unfold State.dropHold
    split
    · split <;> rfl
    · rfl

end

end Sys2Proof.Machine

/-! Rows whose LOW steps have all ended stand when a NEUTRAL request names them, but for their turbines and neutral steps (R99, R154). -/

namespace Sys2Proof.Machine

/-- The waves, the divider, U's queue and what the grant condition reads for LOW stand. -/
structure Still (s t : State) : Prop where
  waves : t.waves = s.waves
  divider : t.divider = s.divider
  queueU : t.queueU = s.queueU
  low : t.low = s.low
  slots : t.slots = s.slots
  queueD : t.queueD = s.queueD

theorem Still.refl (s : State) : Still s s := ⟨rfl, rfl, rfl, rfl, rfl, rfl⟩

theorem Still.trans {s t u : State} (h : Still s t) (k : Still t u) : Still s u :=
  ⟨k.waves.trans h.waves, k.divider.trans h.divider, k.queueU.trans h.queueU, k.low.trans h.low, k.slots.trans h.slots,
    k.queueD.trans h.queueD⟩

theorem still_updNeutral (s : State) (r : Nat) (g : NeutralStep → NeutralStep) : Still s (s.updNeutral r g) := ⟨rfl, rfl, rfl, rfl, rfl, rfl⟩

theorem still_queueHigh (s : State) (x : Turbine) (r : Nat) : Still s (s.queueHigh x r) := ⟨rfl, rfl, rfl, rfl, rfl, rfl⟩

/-- A member that no LOW step of the row owns. -/
theorem MemberTaken.still {u t : State} {r : Nat} {x : Turbine} (h : MemberTaken u r x t) (ho : ∀ n, x.live.owner ≠ some (.low n r)) : Still u t := by
  have hneed : Still u (u.needNeutral r) := still_updNeutral u r _
  cases h with
  | faulted => exact hneed.trans (still_updNeutral _ r _)
  | settled => exact hneed.trans (still_updNeutral _ r _)
  | queued => exact hneed.trans (still_queueHigh _ x r)
  | taken n h => exact absurd h (ho n)
  | retargeted n h => exact absurd h (ho n)

theorem OnGain.still {s u : State} {r : Nat} {rest : List Nat} (hnd : rest.Nodup) (hin : ∀ n ∈ rest, ∃ x ∈ u.turbines, x.node = n)
    (h : OnGain s r rest u) (hb : ∀ n, ¬Busy (s.account (.low n r))) : Still u (rest.foldl (State.neutralMember r) u) := by
  induction rest generalizing u with
  | nil => exact Still.refl u
  | cons node rest ih =>
    rw [List.nodup_cons] at hnd
    obtain ⟨x, hx, rfl⟩ := hin node List.mem_cons_self
    obtain ⟨hr, hn⟩ := h.todo x hx List.mem_cons_self
    have hm := h.core.memberTaken hx hr hn
    have hstill := hm.still fun n ho => hb n ((h.drives.tames n r).1 (h.core.books.owners x hx _ ho).2.busy)
    refine hstill.trans (ih hnd.2 (fun n hmem => ?_) (h.member hnd.1))
    obtain ⟨y, hy, rfl⟩ := hin n (List.mem_cons_of_mem _ hmem)
    exact ⟨_, (hm.single h.core.table.nodes_nodup hx).turbines ▸ List.mem_map_of_mem hy, by unfold State.drivenIn; split <;> rfl⟩

/-- A gain at a row without a released LOW step only skips. -/
theorem Core.gainNeutral_still {s : State} (h : Core s) {r : Nat} (hr : r ≤ 15) (hb : ∀ n, ¬Busy (s.account (.low n r))) :
    Still (s.skipAt r .neutral) (s.gainNeutral r) := by
  have hset := Settling.skipAt h.waves r .neutral
  have h1 := hset.core h
  have hb1 : ∀ n, ¬Busy ((s.skipAt r .neutral).account (.low n r)) := fun n => hset.accounts.not_busy (hb n)
  rcases h.gainNeutral_eq r with ⟨-, e⟩ | ⟨hl, e⟩
  · rw [e]; exact Still.refl _
  · rw [e, State.freshNeutral_eq]
    have hnb : ¬Busy ((s.skipAt r .neutral).account (.neutral r)) := fun hc => hl <| by
      rw [liveAt_iff_busy h]
      simpa only [State.account, State.neutralStep?, hset.aside.neutral] using hc
    generalize s.skipAt r .neutral = s1 at *
    have hg := OnGain.fresh_step h1 hr hnb
    have hmem := hg.still (hg.core.table.members_nodup hr) (fun n hn => by
      obtain ⟨x, hx, e, -⟩ := (hg.core.table.mem_members hr).1 hn
      exact ⟨x, hx, e⟩) hb1
    have hrel : s1.releasedAt r = [] := List.eq_nil_iff_forall_not_mem.2 fun n hn => by
      rw [State.releasedAt_eq, mem_wavesAt h1.waves] at hn
      obtain ⟨st, hst, hp⟩ := hn
      refine hb1 n ⟨st.account, ?_, (phase_active_iff _).2 ((StepState.moves_iff _).1 hp)⟩
      rw [State.account, hst]
      rfl
    rw [hrel]
    have h0 : Still s1 (s1.withFresh r) := ⟨rfl, rfl, rfl, rfl, rfl, rfl⟩
    exact (h0.trans hmem).trans (still_updNeutral _ r _)

/-! ### Rows without a live LOW step -/

/-- The LOW steps at a row have ended. -/
def DeadAt (s : State) (r : Nat) : Prop := ∀ n a, s.step? n r = some a → a.state.terminal = true

theorem DeadAt.congr {s t : State} {r : Nat} (h : DeadAt s r) (e : t.waves = s.waves) : DeadAt t r := fun n a ha => h n a (step?_congr e n r ▸ ha)

theorem noneFinished_congr {s t : State} (e : t.waves = s.waves) (h : NoneFinished s) : NoneFinished t := fun w hw => h w (e ▸ hw)

theorem still_setMask (s : State) (r : Nat) (b : Bool) : Still s (s.setMask r b) := ⟨rfl, rfl, rfl, rfl, rfl, rfl⟩

theorem Gaining.still_row {s : State} (h : Gaining s) {r : Nat} (hr : r ≤ 15) (hf : NoneFinished s) (hd : DeadAt s r) : Still s (s.neutralRow r) := by
  have hm := h.setMask r true
  have hb : ∀ n, ¬Busy ((s.setMask r true).account (.low n r)) := fun n hc => by
    obtain ⟨x, hx, hp⟩ := hc
    obtain ⟨a, ha, rfl⟩ := Option.map_eq_some_iff.1 (Option.mem_def.1 hx)
    have ht := hd n a ha
    rcases (phase_active_iff _).1 hp with e | e <;> rw [e] at ht <;> cases ht
  have hskip : (s.setMask r true).skipAt r .neutral = s.setMask r true := by
    have : (s.setMask r true).unreleasedAt r = [] := List.eq_nil_iff_forall_not_mem.2 fun n hn => by
      rw [State.unreleasedAt_eq, mem_wavesAt hm.core.waves] at hn
      obtain ⟨a, ha, hp⟩ := hn
      have ht := hd n a ha
      rcases (StepState.waits_iff _).1 hp with e | e <;> rw [e] at ht <;> cases ht
    rw [State.skipAt, this]
    rfl
  have hg := hm.core.gainNeutral_still hr hb
  rw [hskip] at hg
  have h1 := (still_setMask s r true).trans hg
  rw [State.neutralRow, completeWaves_of_noneFinished (noneFinished_congr h1.waves hf)]
  exact h1

theorem Gaining.still_rows {rs : List Nat} {s : State} (h : Gaining s) (hf : NoneFinished s) (hrs : ∀ r ∈ rs, r ≤ 15 ∧ DeadAt s r) :
    Still s (s.neutralRows rs) := by
  induction rs generalizing s with
  | nil => exact Still.refl s
  | cons r rs ih =>
    obtain ⟨hr, hd⟩ := hrs r List.mem_cons_self
    have h1 := h.still_row hr hf hd
    have hg := (h.neutralRow (S := AnyRow) hr (sets_any s r)).1
    refine h1.trans (ih hg (noneFinished_congr h1.waves hf) fun q hq => ?_)
    obtain ⟨hq15, hdq⟩ := hrs q (List.mem_cons_of_mem _ hq)
    exact ⟨hq15, hdq.congr h1.waves⟩

/-! ### The row of a single unreleased step -/

theorem Gaining.skip_row {s : State} (h : Gaining s) {w : Wave} {st : WaveStep} (hr : st.row ≤ 15) (k : Skips s w st)
    (ho : ∀ n a, s.step? n st.row = some a → a.state.terminal = false → n = w.num) :
    Still ((s.setMask st.row true).skipStep w.num st.row .neutral) (s.neutralRow st.row) := by
  have hm := h.setMask st.row true
  have km : Skips (s.setMask st.row true) w st := ⟨hm.core.waves, k.wave, k.step, k.unreleased, k.other, k.finished⟩
  have hst := hm.core.waves.step?_of_mem km.wave k.step
  have hb : ∀ n, ¬Busy ((s.setMask st.row true).account (.low n st.row)) := fun n hc => by
    obtain ⟨x, hx, hp⟩ := hc
    obtain ⟨a, ha, rfl⟩ := Option.map_eq_some_iff.1 (Option.mem_def.1 hx)
    have hact := (phase_active_iff _).1 hp
    obtain rfl := ho n a ha (by rcases hact with e | e <;> rw [e] <;> rfl)
    cases hst.symm.trans ha
    rcases k.unreleased with e | e <;> rcases hact with c | c <;> cases e.symm.trans c
  have hskip : (s.setMask st.row true).skipAt st.row .neutral = (s.setMask st.row true).skipStep w.num st.row .neutral := by
    have hmem : ∀ n, n ∈ (s.setMask st.row true).unreleasedAt st.row ↔ n = w.num := fun n => by
      rw [State.unreleasedAt_eq, mem_wavesAt hm.core.waves]
      constructor
      · rintro ⟨a, ha, hp⟩
        exact ho n a ha (by rcases (StepState.waits_iff _).1 hp with e | e <;> rw [e] <;> rfl)
      · rintro rfl
        exact ⟨st, hst, (StepState.waits_iff _).2 k.unreleased⟩
    have : (s.setMask st.row true).unreleasedAt st.row = [w.num] :=
      List.perm_singleton.1 ((List.perm_ext_iff_of_nodup (wavesAt_nodup hm.core.waves st.row StepState.waits) (List.nodup_singleton _)).2 fun n => by
        rw [List.mem_singleton]; exact hmem n)
    rw [State.skipAt, this]
    rfl
  have hg := hm.core.gainNeutral_still hr hb
  rw [hskip] at hg
  have hf : NoneFinished ((s.setMask st.row true).gainNeutral st.row) := noneFinished_congr (hg.waves.trans (km.waves_eq .neutral)) km.noneFinished
  rw [State.neutralRow, completeWaves_of_noneFinished hf]
  exact hg

end Sys2Proof.Machine

/-! A NEUTRAL request that skips a single step while the mark is STALE: its one notice, its successor's start, and the divider (R77, R79, R87). -/

namespace Sys2Proof.Machine

/-- While the mark is STALE and no deadline action is due, the release tests do nothing (R84, R86). -/
theorem releaseTests_stale {s : State} (hm : s.mark = .stale) (hn : NoneDue s) (released : List Nat) : s.releaseTests released = s := by
  have h1 : s.releasable released = [] := List.filter_eq_nil_iff.2 fun k _ hk => by
    simp only [Bool.and_eq_true] at hk
    obtain ⟨w, st, -, -, -, -, -, hf⟩ := s.canRelease_spec hk.1.1
    rw [hm] at hf
    cases hf
  have h2 : s.actionable = [] := List.filter_eq_nil_iff.2 fun k _ hk => by
    simp only [Bool.and_eq_true, Bool.not_eq_true'] at hk
    obtain ⟨⟨hc, ht⟩, hd⟩ := hk
    obtain ⟨st, p, hst, hh, hf, hp, hle⟩ := s.owesAction_spec hc
    simp only [State.owesTest, State.owesDeadline, hst] at ht hd
    exact absurd (hn _ _ st hst hh hf ht hd p hp) (Nat.not_lt.2 hle)
  rw [State.releaseTests, State.releaseLoop, h1, h2]
  rfl

/-- At the end of an event in STEER in which no test can act, the arbiter alone is served. -/
theorem settle_stale {s : State} (hm : s.mark = .stale) (hn : NoneDue s) (hs : s.mode = .steer) : s.settle = s.serveArbiter := by
  rw [State.settle, State.settleAfter, releaseTests_stale hm hn, State.judgeEnd_of_steer hs]

/-- Where the arbiter had nothing left to do, LOW cannot be granted, or no own place is free. -/
theorem lowBlocked_of_served {s : State} (h : ArbiterServed s) : LowBlocked s ∨ 8 ≤ s.queueD.countP fun f => f.own := by
  by_cases hfree : 8 ≤ s.queueD.countP fun f => f.own
  · exact .inr hfree
  · left
    have hret := h.1.resolve_right hfree
    have hg := h.2 hret
    have hplaces : s.freePlaces ≠ 0 := by
      unfold State.freePlaces ownFrames
      omega
    unfold State.grantable at hg
    rw [if_neg hplaces] at hg
    cases hh : s.high with
    | cons n l =>
      rw [hh] at hg
      dsimp only at hg
      split at hg
      · cases hg
      · exact .inr (.inl (by omega))
    | nil =>
      cases hl : s.low with
      | nil => exact .inl hl
      | cons n l =>
        rw [hh, hl] at hg
        dsimp only at hg
        split at hg
        · cases hg
        · rename_i hc
          by_cases hb : s.slots < s.params.budget
          · exact .inr (.inr (by simpa [hb] using hc))
          · exact .inr (.inl (by omega))

theorem arbiterServed_of_full {s : State} (h : 8 ≤ s.queueD.countP fun f => f.own) : ArbiterServed s := by
  refine ⟨.inr h, fun _ => ?_⟩
  have hplaces : s.freePlaces = 0 := by
    unfold State.freePlaces ownFrames
    omega
  rw [State.grantable, if_pos hplaces]

/-- Behind a change that leaves what LOW grants read, the arbiter places deadlines only (R111, R128). -/
theorem serveArbiter_deadlines {s v : State} (hv : Sound v) (h : ArbiterServed s) (hl : v.low = s.low) (hs : v.slots = s.slots)
    (hq : v.queueD = s.queueD) (hp : v.params = s.params) (hy : v.yholdLine = s.yholdLine) :
    ∃ placed : List DivEntry, v.serveArbiter.divider = placed.foldl Divider.place v.divider ∧ ∀ e ∈ placed, ∃ n, e.requester = .deadline n := by
  rcases lowBlocked_of_served h with hb | hfull
  · have hhold : v.holdActive = s.holdActive := by simp only [State.holdActive, hp, hy]
    exact ((serves_serveArbiter hv).blocked (by
      rcases hb with hb | hb | hb
      · exact .inl (hl.trans hb)
      · exact .inr (.inl (by rw [hs, hp]; exact hb))
      · exact .inr (.inr (hhold.trans hb)))).2
  · rw [serveArbiter_of_served (arbiterServed_of_full (hq ▸ hfull))]
    exact ⟨[], rfl, by simp⟩

/-- The notice of a state with the same header and U queue. -/
theorem queueU_noticed {s u : State} (hb : Beside s u) (hq : u.queueU = s.queueU) (n : Notice) : (u.notify n).queueU = (noticed n s).queueU := by
  have h1 : u.params = s.params := hb.params
  have h2 : u.supervisor = s.supervisor := hb.supervisor
  have h3 : u.station = s.station := hb.station
  have h4 : u.nodeAddr = s.nodeAddr := hb.nodeAddr
  rw [State.notify_eq_noticed]
  simp only [noticed, offered, h1, h2, h3, h4, hq]
  split <;> rfl

/-- What a request's rows leave when they skip a single step: the steps and the queues as the skip leaves them. -/
structure SkipsOne (s : State) (w : Wave) (st : WaveStep) (u : State) : Prop where
  gaining : Gaining u
  beside : Beside s u
  queueU : u.queueU = (noticed (.stepSkipped w.num st.row .neutral) s).queueU
  starts : ∀ nxt, w.successor st.row = some nxt → nxt.state = .waiting → u.step? w.num nxt.row = some nxt.start
  skipped : ∀ a, u.step? w.num st.row = some a → a = st.skip
  divider : ∀ p, w.sector.bind s.plan? = some p → u.divider =
    afterTrigger s w p st.row (withdrawn (fun q => st.cmpA == .pending && q == .hold w.num st.row) s.divider)
  low : u.low = s.low
  slots : u.slots = s.slots
  queueD : u.queueD = s.queueD

/-- The rows of a request that skips a single step. -/
theorem Gaining.skipsOne {s : State} (h : Gaining s) {rs : List Nat} (hnd : rs.Nodup) (hrs : ∀ r ∈ rs, r < 16) {w : Wave} {st : WaveStep}
    (k : Skips s w st) (hr : st.row ∈ rs)
    (ho : ∀ n q a, q ∈ rs → s.step? n q = some a → a.state.terminal = false → n = w.num ∧ q = st.row) :
    SkipsOne s w st (s.neutralRows rs) := by
  obtain ⟨A, B, rfl⟩ := List.append_of_mem hr
  have hnot : st.row ∉ A ∧ st.row ∉ B := by
    rw [List.nodup_append, List.nodup_cons] at hnd
    obtain ⟨-, ⟨hB, -⟩, hdis⟩ := hnd
    exact ⟨fun hc => hdis _ hc _ List.mem_cons_self rfl, hB⟩
  have hrow : st.row ≤ 15 := Nat.le_of_lt_succ (hrs _ hr)
  have hA : ∀ r ∈ A, r < 16 := fun r hm => hrs r (by simp [hm])
  have hB : ∀ r ∈ B, r < 16 := fun r hm => hrs r (by simp [hm])
  have hdead : ∀ q, q ∈ A ++ st.row :: B → q ≠ st.row → DeadAt s q := fun q hq hne n a ha => by
    by_contra hc
    exact hne (ho n q a hq ha (by simpa using hc)).2
  have hsA := h.still_rows k.finished fun r hm => ⟨Nat.le_of_lt_succ (hA r hm), hdead r (by simp [hm]) fun e => hnot.1 (e ▸ hm)⟩
  have hgA := (neutralRows_gaining A h hA).1
  have hbA := beside_neutralRows hA s
  rw [State.neutralRows_eq, List.foldl_append, List.foldl_cons, ← State.neutralRows_eq, ← State.neutralRows_eq]
  generalize s.neutralRows A = a at *
  have kA : Skips a w st := ⟨hgA.core.waves, hsA.waves ▸ k.wave, k.step, k.unreleased, k.other, noneFinished_congr hsA.waves k.finished⟩
  have hsr := hgA.skip_row hrow kA fun n x hx hl => (ho n st.row x (by simp) (step?_congr hsA.waves n st.row ▸ hx) hl).1
  have hgr := (hgA.neutralRow (S := AnyRow) hrow (sets_any a st.row)).1
  have hbr := hbA.trans (beside_neutralRow a st.row)
  have km : Skips (a.setMask st.row true) w st := ⟨(hgA.setMask st.row true).core.waves, kA.wave, k.step, k.unreleased, k.other, kA.finished⟩
  have hbm : Beside s (a.setMask st.row true) := hbA.trans (beside_setMask a st.row true)
  have hqm : (a.setMask st.row true).queueU = s.queueU := hsA.queueU
  have hlm : (a.setMask st.row true).low = s.low := hsA.low
  have hslm : (a.setMask st.row true).slots = s.slots := hsA.slots
  have hdm : (a.setMask st.row true).queueD = s.queueD := hsA.queueD
  have hvm : (a.setMask st.row true).divider = s.divider := hsA.divider
  have hwm : (a.setMask st.row true).waves = s.waves := hsA.waves
  generalize a.neutralRow st.row = b at *
  generalize a.setMask st.row true = m at *
  have hside : WavesOnly m (m.skipStep w.num st.row .neutral) := WavesOnly.skipStep m _ _ _
  have hgo := km.goes
  have hweq : b.waves = (m.skipping w.num st.row).waves := hsr.waves.trans (km.waves_eq .neutral)
  have hsB : Still b (b.neutralRows B) := hgr.still_rows (noneFinished_congr hweq km.noneFinished) fun q hm => by
    have hne : q ≠ st.row := fun e => hnot.2 (e ▸ hm)
    refine ⟨Nat.le_of_lt_succ (hB q hm), DeadAt.congr (fun n x hx => ?_) hweq⟩
    obtain ⟨y, hy, e⟩ := hgo.kept_from hx
    have hyt := hdead q (by simp [hm]) hne n y (step?_congr hwm n q ▸ hy)
    rcases (ends_ne fun c => hne c.2).1 e with rfl | ⟨-, -, c, -⟩
    · exact hyt
    · rw [c] at hyt; cases hyt
  have hstep : ∀ n q, (b.neutralRows B).step? n q = (m.skipping w.num st.row).step? n q := fun n q => step?_congr (hsB.waves.trans hweq) n q
  have hall := hsr.trans hsB
  refine
    { gaining := (neutralRows_gaining B hgr hB).1
      beside := hbr.trans (beside_neutralRows hB b)
      queueU := ?_
      starts := fun nxt hs hw => by rw [hstep]; exact (km.starts hs hw).1
      skipped := fun x hx => ?_
      divider := fun p hp => ?_
      low := hall.low.trans (hside.low.trans hlm)
      slots := hall.slots.trans ?_
      queueD := hall.queueD.trans (hside.queueD.trans hdm) }
  · rw [hall.queueU, km.queueU]
    exact queueU_noticed hbm hqm _
  · rw [hstep] at hx
    obtain ⟨y, hy, e⟩ := hgo.kept_from hx
    cases (km.waves.step?_of_mem km.wave k.step).symm.trans hy
    exact ends_self.1 e
  · have hplan : w.sector.bind m.plan? = some p := by
      have : m.plan? = s.plan? := funext fun i => by simp only [State.plan?, show m.plans = s.plans from hbm.plans]
      rw [this]; exact hp
    rw [hall.divider, km.divider hplan, hvm]
    have hf : m.uf = s.uf := by simp only [State.uf, show m.filter = s.filter from hbm.filter]
    simp only [afterTrigger, holdRequest, hf, show m.params = s.params from hbm.params]
  · rw [← hslm]
    simp only [State.slots, hside.lowSlots, hside.highSlots]

end Sys2Proof.Machine

/-! O40 put together: the NEUTRAL request (R153). -/

namespace Sys2Proof.Machine

theorem mem_rowsOf_iff {rows : BitVec 16} {r : Nat} : r ∈ rowsOf rows ↔ rows.getLsbD r = true := by
  simp only [rowsOf, List.mem_filter, List.mem_range]
  exact ⟨And.right, fun h => ⟨BitVec.lt_of_getLsbD h, h⟩⟩

theorem rowsOf_nodup (rows : BitVec 16) : (rowsOf rows).Nodup := List.nodup_range.filter _

theorem rowsOf_ne_nil {rows : BitVec 16} (h : rows ≠ 0) : rowsOf rows ≠ [] := fun e => h <| by
  refine BitVec.eq_of_getLsbD_eq fun i _ => ?_
  have : rows.getLsbD i = false := by
    cases hb : rows.getLsbD i with
    | false => rfl
    | true =>
      have := mem_rowsOf_iff.2 hb
      rw [e] at this
      cases this
  rw [this]
  exact BitVec.getLsbD_zero.symm

/-- The state in which the rows of a request are handled: answered, with the cause of the context set (R151, R153). -/
def State.named (s : State) (e : Env) (rows : BitVec 16) : State :=
  (answered e 16 .ok (bytes16 rows) (delivered e s)).setNeutralCause .request

/-- The request's end in STEER. -/
def State.neutralEnd (s : State) (e : Env) (rows : BitVec 16) : State :=
  ((s.named e rows).neutralRows (rowsOf rows)).judgeNeutral.settle

theorem exec_neutral {s : State} (h : Served s) (e : Env) (rows : BitVec 16) :
    exec (.neutral e rows) s = .next ((delivered e s).doNeutral e rows) := by
  change Host.Outcome.next (s.request e (.neutral rows)) = _
  rw [State.request_served h]
  rfl

theorem doNeutral_refused {s : State} (e : Env) (rows : BitVec 16) (h : s.mode ≠ .steer) : s.doNeutral e rows = answered e 16 .mode [] s := by
  rw [State.doNeutral, if_pos h, State.reply_refused]

theorem doNeutral_none {s : State} (e : Env) (h : s.mode = .steer) : s.doNeutral e 0 = answered e 16 .ok [0, 0] s := by
  rw [State.doNeutral, if_neg (not_not.2 h), State.reply_ok]
  rfl

theorem doNeutral_rows {s : State} (e : Env) {rows : BitVec 16} (hr : rows ≠ 0) (h : s.mode = .steer) : s.doNeutral e rows =
    (((answered e 16 .ok (bytes16 rows) s).setNeutralCause .request).neutralRows (rowsOf rows)).judgeNeutral.settle := by
  rw [State.doNeutral, if_neg (not_not.2 h), State.reply_ok]
  dsimp only
  split
  · rename_i c; exact absurd c (rowsOf_ne_nil hr)
  · rfl

/-! ### The state in which the rows are handled -/

/-- What a delivered and answered request has changed: the lapse timer, the supervisor address, U's queue and the context's cause. -/
theorem named_eq (s : State) (e : Env) (rows : BitVec 16) : ∃ lapse due sup queue dropped, s.named e rows =
    { s with lapse := lapse, lapseDue := due, supervisor := sup, queueU := queue, ownDropped := dropped,
             neutral := { s.neutral with cause := some .request } } :=
  ⟨_, _, _, _, _, by rw [State.named, answered_eq, delivered_eq]; rfl⟩

theorem named_gaining {s : State} (h : ArbiterOk s) (e : Env) (rows : BitVec 16) :
    Gaining (s.named e rows) ∧ (s.named e rows).account = s.account := by
  obtain ⟨_, _, _, _, _, eq⟩ := named_eq s e rows
  rw [eq]
  exact (arbiterOk_iff.1 h).2.gaining.same rfl rfl rfl rfl rfl rfl

theorem rowsOf_small {rows : BitVec 16} {r : Nat} (h : r ∈ rowsOf rows) : r ≤ 15 := Nat.le_of_lt_succ (mem_rowsOf h)

/-- The NEUTRAL request, read from the state in which its rows are handled. -/
theorem requested {s : State} (h : ArbiterOk s) (hm : s.mode = .steer) (e : Env) (rows : BitVec 16) {S : Nat → Prop}
    (hS : ∀ r ∈ rowsOf rows, Sets S s r) : Requested S (fun r => rows.getLsbD r) (rowsOf rows) (s.named e rows)
      ((s.named e rows).neutralRows (rowsOf rows)) (s.neutralEnd e rows) := by
  have hg := (named_gaining h e rows).1
  have hsets : ∀ r ∈ rowsOf rows, Sets S (s.named e rows) r := by
    obtain ⟨_, _, _, _, _, eq⟩ := named_eq s e rows
    rw [eq]
    exact hS
  have hmode : (s.named e rows).mode = .steer := by
    obtain ⟨_, _, _, _, _, eq⟩ := named_eq s e rows
    rw [eq]
    exact hm
  have hled := Led.rows hg (rowsOf rows) (Led.nil hg) (by simpa using rowsOf_nodup rows) (fun r hr => rowsOf_small hr) hsets
  have hgain := neutralRows_gaining (rowsOf rows) hg fun r hr => mem_rowsOf hr
  exact
    { base := hg.core
      led := hled
      masked := fun r hr => by
        rw [masked_neutralRows (fun r hr => mem_rowsOf hr)]
        simp [hr]
      named := fun r => mem_rowsOf_iff.symm
      small := fun r hr => rowsOf_small hr
      done := hgain.1.concluded (hgain.2.trans hmode) }

/-! ### The clauses -/

/-- What the context gains is read from the turbines, the tolerance and the context's steps. -/
theorem Gains.congr {s s' t : State} {named : Nat → Bool} {c : NeutralCause} (ht : s'.turbines = s.turbines) (hp : s'.params = s.params)
    (hn : s'.neutral.steps = s.neutral.steps) (h : Gains s t named c) : Gains s' t named c := by
  have hr : atRest s' = atRest s := funext fun x => atRest_congr hp x
  have hl : LiveAt s' = LiveAt s := funext fun r => by simp only [LiveAt, hn]
  have hg : GainedStep s' t = GainedStep s t := funext fun k => by simp only [GainedStep, ht, hr]
  unfold Gains staysAtWork
  rw [hr, hl, hg, ht, hn]
  exact h

/-- A single live step at the named rows is skipped while another of its wave is live. -/
theorem skips_of_single {s : State} {e : Env} {rows : BitVec 16} (hw : WavesOk s) {w : Wave} (hm : w ∈ s.waves) {st : WaveStep} (hst : st ∈ w.steps)
    (hu : st.state.unreleased) (ho : ∃ o ∈ w.steps, o.row ≠ st.row ∧ o.state.terminal = false) (hf : NoneFinished s) :
    Skips (s.named e rows) w st := by
  obtain ⟨_, _, _, _, _, eq⟩ := named_eq s e rows
  rw [eq]
  exact ⟨hw, hm, hst, hu, ho, hf⟩

end Sys2Proof.Machine

/-! O40: the clauses of the NEUTRAL request, and the request (R153). -/

namespace Sys2Proof.Machine

/-- A step that has just started stands behind the arbiter's grants. -/
theorem Goes.starts {s t : State} (h : Goes (fun _ _ => Grants) s t) {n r : Nat} {a : WaveStep} (ha : s.step? n r = some a.start) :
    t.step? n r = some a.start := by
  have hg := h n r
  rw [ha] at hg
  generalize t.step? n r = y at hg
  cases hg with
  | left g e => rcases g.idle a.start_idle with rfl | ⟨c, -⟩ <;> contradiction
  | kept g =>
    rcases g.idle a.start_idle with rfl | ⟨c, -⟩
    · rfl
    · cases c

section
variable {s : State} (h : ArbiterOk s) (hm : s.mode = .steer) (e : Env) (rows : BitVec 16)
include h hm

theorem neutral_steps {w : Wave} (hw : w ∈ s.waves) {st : WaveStep} (hst : st ∈ w.steps) (hn : rows.getLsbD st.row = true) {w' : Wave}
    (hw' : w' ∈ (s.neutralEnd e rows).waves) (hnum : w'.num = w.num) : ∃ st' ∈ w'.steps, st'.row = st.row ∧
      (st.state.unreleased → st'.state = .skipped) ∧
      (st.state.active → st'.state = .done ∧ st'.set = some st.hold ∧ st'.superseded = st.superseded + owned s (.low w.num st.row)) ∧
      (st.state.terminal = true → st' = st) := by
  have hreq := requested h hm e rows (S := AnyRow) fun r _ => sets_any s r
  obtain ⟨_, _, _, _, _, eq⟩ := named_eq s e rows
  rw [eq] at hreq
  exact hreq.steps hw hst hn hw' hnum

theorem neutral_skips (hn : NoneAtP s) : (s.neutralEnd e rows).counters.skips = s.counters.skips + BitVec.ofNat 32
    (s.waves.map fun w => w.steps.countP fun st =>
      rows.getLsbD st.row && (st.state == .waiting || st.state == .holding)).sum := by
  have hreq := requested h hm e rows (S := AnyRow) fun r _ => sets_any s r
  obtain ⟨_, _, _, _, _, eq⟩ := named_eq s e rows
  rw [eq] at hreq
  exact hreq.skips (rowsOf_nodup rows) hn

theorem neutral_dividerAdds (hn : NoneAtP s) (hu : WaitingUnforced s) (hd : s.divider.stage = none → s.divider.list = [])
    (hs : ∀ w ∈ s.waves, ∀ st ∈ w.steps, rows.getLsbD st.row = true → ∀ next, w.successor st.row = some next →
      next.state = .waiting → rows.getLsbD next.row = false) :
    DividerAdds s (s.neutralEnd e rows) (neutralWithdraws s fun r => rows.getLsbD r) := by
  have hw := (arbiterOk_iff.1 h).2.waves
  have hreq := requested h hm e rows (S := fun r => rows.getLsbD r = false) fun r hr n a ha _ w nxt hwn hsucc hwait => by
    obtain ⟨w0, hw0, hnum, hst, hrow⟩ := State.step?_mem ha
    obtain ⟨hwm, hwn'⟩ := State.wave?_mem hwn
    obtain rfl := List.inj_on_of_nodup_map hw.nums_nodup hw0 hwm (hnum.trans hwn'.symm)
    exact hs w0 hw0 a hst (hrow ▸ mem_rowsOf_iff.1 hr) nxt (hrow ▸ hsucc) hwait
  obtain ⟨_, _, _, _, _, eq⟩ := named_eq s e rows
  rw [eq] at hreq
  exact hreq.dividerAdds (fun r hr c => by rw [mem_rowsOf_iff.1 hr] at c; cases c) hn hu hd

theorem neutral_gains : Gains (delivered e s) (s.neutralEnd e rows) (fun r => rows.getLsbD r) .request := by
  have hreq := requested h hm e rows (S := AnyRow) fun r _ => sets_any s r
  have hg := hreq.gains (cause := .request) rfl
  obtain ⟨_, _, _, _, _, eq⟩ := named_eq s e rows
  rw [eq] at hg
  exact Gains.congr (delivered_turbines e s) (delivered_params e s) (congrArg Neutral.steps (delivered_neutral e s)) hg

/-- What the request leaves alone, the masks apart. -/
theorem neutral_beside : Beside (delivered e s) (s.neutralEnd e rows) := by
  have hreq := requested h hm e rows (S := AnyRow) fun r _ => sets_any s r
  have h1 : Beside (delivered e s) (s.named e rows) := by
    rw [State.named, answered_eq]
    exact { Beside.refl (delivered e s) with }
  exact (h1.trans (beside_neutralRows (fun r hr => mem_rowsOf hr) _)).trans (.of_steady hreq.done.steady)

omit h hm in
theorem neutral_quiet : (s.neutralEnd e rows).quiet = s.quiet := by
  have h1 : (s.named e rows).quiet = s.quiet := by
    obtain ⟨_, _, _, _, _, eq⟩ := named_eq s e rows
    rw [eq]
  exact (quiet_propagates.trans (quiet_propagates.judgeNeutral _) (quiet_propagates.settle _)).trans
    ((quiet_neutralRows (fun _ hr => mem_rowsOf hr) _).trans h1)

omit h hm in
theorem neutral_queueU : ∃ rest, (s.neutralEnd e rows).queueU = (answered e 16 .ok (bytes16 rows) (delivered e s)).queueU ++ rest :=
  queueU_propagates.trans (queueU_neutralRows (fun _ hr => mem_rowsOf hr) (s.named e rows))
    (queueU_propagates.trans (queueU_propagates.judgeNeutral _) (queueU_propagates.settle _))

theorem neutral_masks (r : Nat) : (s.neutralEnd e rows).masked r = (s.masked r || rows.getLsbD r) ∧
    (s.neutralEnd e rows).members r = s.members r := by
  have hreq := requested h hm e rows (S := AnyRow) fun r _ => sets_any s r
  have hrows : (s.named e rows).rows = s.rows := by
    obtain ⟨_, _, _, _, _, eq⟩ := named_eq s e rows
    rw [eq]
  have hmask := masked_neutralRows (fun r hr => mem_rowsOf hr) (s.named e rows) (rs := rowsOf rows) r
  have hmem := members_neutralRows (fun r hr => mem_rowsOf hr) (s.named e rows) (rs := rowsOf rows) r
  have hcont : (rowsOf rows).contains r = rows.getLsbD r := by
    rw [Bool.eq_iff_iff, ← mem_rowsOf_iff]
    simp
  simp only [State.masked, State.members, State.row, hreq.done.steady.rows] at hmask hmem ⊢
  rw [hmask, hmem, hrows, hcont]
  exact ⟨rfl, rfl⟩

theorem neutral_mode : (s.neutralEnd e rows).mode = .steer := by
  have hreq := requested h hm e rows (S := AnyRow) fun r _ => sets_any s r
  have h1 : (s.named e rows).mode = s.mode := by
    obtain ⟨_, _, _, _, _, eq⟩ := named_eq s e rows
    rw [eq]
  exact hreq.done.mode.trans ((neutralRows_gaining (rowsOf rows) (named_gaining h e rows).1 fun r hr => mem_rowsOf hr).2.trans (h1.trans hm))

/-! ### A single skip -/

/-- The state behind the rows of a request, the context judged. -/
def State.neutralJudged (s : State) (e : Env) (rows : BitVec 16) : State := ((s.named e rows).neutralRows (rowsOf rows)).judgeNeutral

/-- Where a request skips a single step while the mark is STALE, the arbiter alone is served behind its rows. -/
theorem neutral_stale (hn : NoneAtP s) (hstale : s.mark = .stale) :
    Sound (s.neutralJudged e rows) ∧ s.neutralEnd e rows = (s.neutralJudged e rows).serveArbiter := by
  have hreq := requested h hm e rows (S := AnyRow) fun r _ => sets_any s r
  have hmode : ((s.named e rows).neutralRows (rowsOf rows)).mode = .steer := hreq.done.mode.symm.trans (neutral_mode h hm e rows)
  have hmark : ((s.named e rows).neutralRows (rowsOf rows)).mark = .stale := by
    have h1 := (beside_neutralRows (rs := rowsOf rows) (fun _ hr => mem_rowsOf hr) (s.named e rows)).mark
    obtain ⟨_, _, _, _, _, eq⟩ := named_eq s e rows
    rw [h1, eq]
    exact hstale
  have hdue : NoneDue ((s.named e rows).neutralRows (rowsOf rows)) := hreq.led.noneDue (by
    have := noneDue_of_noneAtP hn
    obtain ⟨_, _, _, _, _, eq⟩ := named_eq s e rows
    rw [eq]
    exact this)
  have hs := hreq.led.gaining.sound_judged hmode
  refine ⟨hs, ?_⟩
  unfold State.neutralEnd State.neutralJudged
  generalize (s.named e rows).neutralRows (rowsOf rows) = u at *
  obtain ⟨e1, -, -, -, -, e6, -⟩ := u.judgeNeutral_aside
  have hsteady := steady_propagates.judgeNeutral u
  exact settle_stale (hsteady.mark.trans hmark) (hdue.goes (late_of_waves e1)) (e6.trans hmode)

/-- A request that skips a single step: its notice, its successor's start, its compare A and the divider (R77, R79, R87). -/
theorem neutral_single (hn : NoneAtP s) (hstale : s.mark = .stale) {w : Wave} (hw : w ∈ s.waves) {st : WaveStep} (hst : st ∈ w.steps)
    (hr : rows.getLsbD st.row = true) (hu : st.state.unreleased)
    (hone : ∀ w2 ∈ s.waves, ∀ st2 ∈ w2.steps, rows.getLsbD st2.row = true → st2.state.terminal = false → w2.num = w.num ∧ st2.row = st.row)
    (ho : ∃ o ∈ w.steps, o.row ≠ st.row ∧ o.state.terminal = false) (hf : NoneFinished s) :
    (s.neutralEnd e rows).queueU = (noticed (.stepSkipped w.num st.row .neutral)
      (answered e 16 .ok (bytes16 rows) (delivered e s))).queueU ∧
    (∀ next, w.successor st.row = some next → next.state = .waiting →
      ∃ w' ∈ (s.neutralEnd e rows).waves, w'.num = w.num ∧ ∃ n ∈ w'.steps, n.row = next.row ∧ n.state = .holding ∧ n.hold = 0 ∧
        n.cmpA = .pending) ∧
    (∀ p, w.sector.bind s.plan? = some p → ArbiterServed s → ∃ placed : List DivEntry,
      (s.neutralEnd e rows).divider = placed.foldl Divider.place (afterTrigger s w p st.row
        (withdrawn (fun q => st.cmpA == .pending && q == .hold w.num st.row) s.divider)) ∧
      ∀ d ∈ placed, ∃ n, d.requester = .deadline n) ∧
    ∀ w' ∈ (s.neutralEnd e rows).waves, w'.num = w.num → ∀ st' ∈ w'.steps, st'.row = st.row →
      st'.cmpA = if st.cmpA = .pending then .absent else st.cmpA := by
  have hwok := (arbiterOk_iff.1 h).2.waves
  obtain ⟨hsound, hend⟩ := neutral_stale h hm e rows hn hstale
  have hserve := serves_serveArbiter hsound
  have k : SkipsOne (s.named e rows) w st ((s.named e rows).neutralRows (rowsOf rows)) := by
    refine (named_gaining h e rows).1.skipsOne (rowsOf_nodup rows) (fun r hr => mem_rowsOf hr)
      (skips_of_single (e := e) (rows := rows) hwok hw hst hu ho hf) (mem_rowsOf_iff.2 hr) fun n q a hq ha hl => ?_
    have ha' : s.step? n q = some a := by
      obtain ⟨_, _, _, _, _, eq⟩ := named_eq s e rows
      rw [eq] at ha
      exact ha
    obtain ⟨w2, hw2, rfl, hm2, rfl⟩ := State.step?_mem ha'
    exact hone w2 hw2 a hm2 (mem_rowsOf_iff.1 hq) hl
  have hsoundEnd : WavesOk (s.neutralEnd e rows) := hend ▸ hsound.serveArbiter.waves
  rw [hend] at hsoundEnd ⊢
  unfold State.neutralJudged at *
  obtain ⟨e1, e2, -⟩ := ((s.named e rows).neutralRows (rowsOf rows)).judgeNeutral_aside
  generalize hu' : (s.named e rows).neutralRows (rowsOf rows) = u at *
  have hjq : u.judgeNeutral.queueU = u.queueU ∧ u.judgeNeutral.low = u.low ∧ u.judgeNeutral.slots = u.slots ∧
      u.judgeNeutral.queueD = u.queueD := by
    unfold State.judgeNeutral
    split <;> exact ⟨rfl, rfl, rfl, rfl⟩
  obtain ⟨q1, q2, q3, q4⟩ := hjq
  have hstep : ∀ n q, u.judgeNeutral.step? n q = u.step? n q := step?_congr e1
  have hbeside := k.beside.trans (.of_steady (steady_propagates.judgeNeutral u))
  generalize u.judgeNeutral = v at *
  refine ⟨?_, fun nxt hs hwait => ?_, fun p hp hserved => ?_, fun w' hw' hnum st' hst' hrow => ?_⟩
  · rw [hserve.tells.queueU, q1, k.queueU]
    rw [State.named, ← State.notify_eq_noticed]
    generalize answered e 16 .ok (bytes16 rows) (delivered e s) = a
    exact queueU_noticed (u := a.setNeutralCause .request) { Beside.refl a with } rfl _
  · have hstart := hserve.tells.goes.starts ((hstep _ _).trans (k.starts nxt hs hwait))
    obtain ⟨w', hw', hnum, hn, hrow⟩ := State.step?_mem hstart
    exact ⟨w', hw', hnum, _, hn, hrow, rfl, rfl, rfl⟩
  · have hdiv := k.divider p
    have hlow := k.low
    have hslots := k.slots
    have hqueue := k.queueD
    obtain ⟨_, _, _, _, _, eq⟩ := named_eq s e rows
    rw [eq] at hbeside hdiv hlow hslots hqueue
    have hv : v.divider = afterTrigger s w p st.row
        (withdrawn (fun q => st.cmpA == .pending && q == .hold w.num st.row) s.divider) := e2.trans (hdiv hp)
    rw [← hv]
    exact serveArbiter_deadlines hsound hserved (q2.trans hlow) (q3.trans hslots) (q4.trans hqueue) hbeside.params hbeside.yholdLine
  · have hfound := hsoundEnd.step?_of_mem hw' hst'
    rw [hnum, hrow] at hfound
    obtain ⟨a, ha, hl⟩ := (late_of_grants hserve.tells.goes).kept_from hfound
    obtain rfl := k.skipped a ((hstep _ _).symm.trans ha)
    rw [hl.terminal rfl]
    rfl

end

/-- Settles O40: the request's rows are handled one by one, each with what it leaves of the steps, the context and the divider (`Led`), and what
the end of the event does behind them ends no step again (`Concluded`). -/
theorem neutralSetsMasks : Obligations.NeutralSetsMasks := by
  intro s e rows hs
  refine ⟨fun hm => ?_, fun hm hr => ?_, fun hm hr h => ?_⟩
  · rw [exec_neutral hs, doNeutral_refused e rows (by rwa [delivered_mode])]
  · rw [exec_neutral hs, hr, doNeutral_none e ((delivered_mode e s).trans hm)]
  · obtain ⟨rest, hrest⟩ := neutral_queueU (s := s) e rows
    refine ⟨s.neutralEnd e rows, rest, ?_, hrest, fun r _ => neutral_masks h hm e rows r, neutral_mode h hm e rows, neutral_gains h hm e rows,
      fun w hw st hst hn w' hw' hnum => neutral_steps h hm e rows hw hst hn hw' hnum, neutral_skips h hm e rows,
      fun hn hu _ => neutral_dividerAdds h hm e rows hn hu,
      fun hn _ hstale w hw st hst hr hu _ => neutral_single h hm e rows hn hstale hw hst hr hu,
      neutral_quiet e rows, neutral_beside h hm e rows⟩
    rw [exec_neutral hs, doNeutral_rows e hr ((delivered_mode e s).trans hm)]
    rfl

end Sys2Proof.Machine

/-! MET frames (R23) and the LOAD SOURCES request (R22, R28). -/

namespace Sys2Proof.Machine

/-! ### MET frames (R23, R164) -/

/-- An observation that is not offered gives no source a reading (R23). -/
theorem observe_met (s : State) (a : Addr) (m : MetBody) :
    (if m.quality = 0 then s.observe .met a.src.toNat m.speed.toNat m.direction.toNat else s) =
      { s with sources := s.sources.map fun x =>
        if x.kind = .met ∧ x.node = a.src.toNat ∧ m.quality = 0 ∧ m.direction.toNat < 3600 then
          { x with reading := some (min 600 m.speed.toNat, m.direction.toNat), age := 0 }
        else x } := by
  by_cases hq : m.quality = 0
  · simp [hq, State.observe]
  · rw [if_neg hq]
    simp only [hq, false_and, and_false, if_false, List.map_id']

/-- Settles O28: the frame arrives on D, where its reading is offered and it is forwarded. -/
theorem metObserved : Obligations.MetObserved := by
  intro s a m hd
  change Host.Outcome.next (s.receiveAs .d 3 a (metBytes m) (.met a m)) = _
  rw [State.receiveAs, if_pos (takes_carries hd), State.heard_d, State.arrive, State.metOnD, observe_met, State.forward_eq_forwarded]

/-! ### LOAD SOURCES (R22, R28) -/

/-- An entry of a LOAD SOURCES request is out of range (R22, check 2). -/
abbrev SourceOutOfRange (x : SourceReq) : Prop := (x.kind ≠ 1 ∧ x.kind ≠ 2) ∨ x.node = 0 ∨ x.node = 255

/-- The source that an entry in range asks for (R22). -/
def sourceOf (x : SourceReq) : Source := ⟨if x.kind = 1 then .met else .nacelle, x.node.toNat, none, 65535, false⟩

theorem sourceOf?_eq_none {x : SourceReq} (h : SourceOutOfRange x) : sourceOf? x = none := by
  unfold sourceOf? SourceKind.ofCode
  rcases h with ⟨h1, h2⟩ | h
  · rw [if_neg h1, if_neg h2]
  · simp only [h, if_true]
    split <;> rfl

theorem sourceOf?_eq_some {x : SourceReq} (h : ¬SourceOutOfRange x) : sourceOf? x = some (sourceOf x) := by
  obtain ⟨hk, hn⟩ := not_or.1 h
  unfold sourceOf? SourceKind.ofCode sourceOf
  by_cases h1 : x.kind = 1
  · simp only [h1, hn, if_true, if_false]
  · have h2 : x.kind = 2 := by_contra fun c => hk ⟨h1, c⟩
    rw [if_neg h1, if_pos h2, if_neg h1]
    simp only [hn, if_false]

/-- A traversal of a list fails where one of its entries does. -/
theorem mapM_eq_none {α β : Type} {f : α → Option β} {l : List α} {a : α} (ha : a ∈ l) (h : f a = none) : l.mapM f = none := by
  induction l with
  | nil => cases ha
  | cons b l ih =>
    rw [List.mapM_cons]
    rcases List.mem_cons.1 ha with rfl | hm
    · simp [h]
    · simp [ih hm]

theorem mapM_eq_map {α β : Type} {f : α → Option β} {g : α → β} {l : List α} (h : ∀ a ∈ l, f a = some (g a)) :
    l.mapM f = some (l.map g) := by
  induction l with
  | nil => rfl
  | cons b l ih =>
    rw [List.mapM_cons, h b List.mem_cons_self, ih fun a ha => h a (List.mem_cons_of_mem _ ha)]
    rfl

/-- The list that a request asks for is refused exactly where check 2 of R22 fails. -/
theorem sourceList?_eq (number : Byte) (entries : List SourceReq) : sourceList? number entries =
    if 4 < number.toNat ∨ entries.length < number.toNat ∨ ∃ x ∈ entries.take number.toNat, SourceOutOfRange x then none
    else some ((entries.take number.toNat).map sourceOf) := by
  unfold sourceList?
  by_cases hc : 4 < number.toNat ∨ entries.length < number.toNat
  · rw [if_pos hc, if_pos (or_assoc.1 (.inl hc))]
  · rw [if_neg hc]
    by_cases hr : ∃ x ∈ entries.take number.toNat, SourceOutOfRange x
    · obtain ⟨x, hx, hb⟩ := hr
      rw [mapM_eq_none hx (sourceOf?_eq_none hb), if_pos (.inr (.inr ⟨x, hx, hb⟩))]
    · rw [if_neg fun c => (or_assoc.2 c).elim hc hr]
      exact mapM_eq_map fun x hx => sourceOf?_eq_some fun hb => hr ⟨x, hx, hb⟩

theorem nodup_sources_iff (l : List SourceReq) :
    ((l.map sourceOf).map fun x => x.node).Nodup ↔ (l.map fun x => x.node).Nodup := by
  have e : ((l.map sourceOf).map fun x => x.node) = (l.map fun x => x.node).map BitVec.toNat := by
    simp [sourceOf, Function.comp_def]
  rw [e, List.nodup_map_iff fun _ _ => BitVec.eq_of_toNat_eq]

theorem own_source_iff (l : List SourceReq) (addr : Byte) :
    ((l.map sourceOf).any fun x => x.node == addr.toNat) = true ↔ ∃ x ∈ l, x.node = addr := by
  simp [sourceOf, BitVec.toNat_inj]

/-- LOAD SOURCES, by the checks of R22 in their order. -/
theorem State.doLoadSources_eq (s : State) (e : Env) (number : Byte) (entries : List SourceReq) :
    s.doLoadSources e number entries =
      if loadSourcesResult s number entries = .ok then
        (State.unprime { s with sources := (entries.take number.toNat).map sourceOf }).reply e 6 .ok [number]
      else s.reply e 6 (loadSourcesResult s number entries) [] := by
  unfold State.doLoadSources loadSourcesResult
  by_cases hm : s.mode ≠ .pass
  · simp [hm]
  · rw [if_neg hm, sourceList?_eq]
    dsimp only
    rw [if_neg hm]
    change _ = if (if _ ∨ _ ∨ ∃ x ∈ _, SourceOutOfRange x then Result.range else _) = _ then _ else _
    by_cases hr : 4 < number.toNat ∨ entries.length < number.toNat ∨ ∃ x ∈ entries.take number.toNat, SourceOutOfRange x
    · simp only [if_pos hr]
      rfl
    · simp only [if_neg hr, nodup_sources_iff, own_source_iff]
      split <;> simp

theorem loadSourcesResult_delivered (e : Env) (s : State) (number : Byte) (entries : List SourceReq) :
    loadSourcesResult (delivered e s) number entries = loadSourcesResult s number entries := by
  simp only [loadSourcesResult, delivered_mode, delivered_nodeAddr]

/-- Settles O35: refused by the first check of R22 that fails, or the list replaced and the unit unprimed. -/
theorem loadSourcesChecked : Obligations.LoadSourcesChecked := by
  intro s e number entries hs
  have hx : exec (.loadSources e number entries) s = .next ((delivered e s).doLoadSources e number entries) := by
    change Host.Outcome.next (s.request e (.loadSources number entries)) = _
    rw [State.request_served hs]
    rfl
  rw [hx, State.doLoadSources_eq, loadSourcesResult_delivered]
  refine ⟨fun hr => ?_, fun hr => ?_⟩
  · rw [if_neg hr, State.reply_refused]
  · rw [if_pos hr, State.reply_ok, State.unprime]
    simp [sourceOf, Function.comp_def]

end Sys2Proof.Machine

/-!
The ranges of the estimate (R21, R29, R30, R32): what the filters make of accumulators in their ranges, and that every command keeps the ranges
or leaves parameters, sources, filter and sector alone (`State.observation`).
-/

namespace Sys2Proof.Machine

/-! ### The arithmetic of the filters (R27, R29, R30) -/

/-- A shifted difference lies between 0 and the difference. -/
theorem ediv_two_pow_between (x : Int) (k : Nat) :
    (0 ≤ x → 0 ≤ x / 2 ^ k ∧ x / 2 ^ k ≤ x) ∧ (x < 0 → x ≤ x / 2 ^ k ∧ x / 2 ^ k < 0) := by
  have hp : (0 : Int) < 2 ^ k := by positivity
  refine ⟨fun h => ⟨Int.ediv_nonneg h hp.le, Int.ediv_le_self _ h⟩, fun h => ⟨?_, Int.ediv_neg_of_neg_of_pos h hp⟩⟩
  exact (Int.le_ediv_iff_mul_le hp).2 (by nlinarith [Int.add_one_le_iff.2 hp])

/-- The speed filter stays within its range (R29). -/
theorem speedStep_range {acc : Int} {raw shift : Nat} (h0 : 0 ≤ acc) (h1 : acc ≤ 153600) (hr : raw ≤ 600) :
    0 ≤ speedStep acc raw shift ∧ speedStep acc raw shift ≤ 153600 := by
  unfold speedStep
  obtain ⟨hp, hn⟩ := ediv_two_pow_between ((raw : Int) * 256 - acc) shift
  rcases lt_or_ge ((raw : Int) * 256 - acc) 0 with h | h
  · have := hn h; omega
  · have := hp h; omega

theorem wrapDir_range (x : Int) : -1800 ≤ wrapDir x ∧ wrapDir x ≤ 1799 := by
  unfold wrapDir; omega

/-- The direction filter stays within its range (R30). -/
theorem directionStep_range {acc : Int} {raw shift : Nat} (h0 : 0 ≤ acc) (h1 : acc ≤ 921599) :
    0 ≤ directionStep acc raw shift ∧ directionStep acc raw shift ≤ 921599 := by
  unfold directionStep
  obtain ⟨hlo, hhi⟩ := wrapDir_range ((raw : Int) - acc / 256)
  obtain ⟨hp, hn⟩ := ediv_two_pow_between (wrapDir ((raw : Int) - acc / 256) * 256) shift
  generalize wrapDir ((raw : Int) - acc / 256) * 256 / 2 ^ shift = d at *
  generalize wrapDir ((raw : Int) - acc / 256) = x at *
  have hd : -460800 ≤ d ∧ d ≤ 460544 := by
    rcases lt_or_ge (x * 256) 0 with h | h
    · have := hn h; omega
    · have := hp h; omega
  dsimp only
  split
  · omega
  · split <;> omega

/-- The mean of speeds within their range lies in it (R27). -/
theorem rawSpeed_le {rs : List (Nat × Nat)} (h : ∀ p ∈ rs, p.1 ≤ 600) : rawSpeed rs ≤ 600 := by
  have hs : (rs.map fun p => p.1).sum ≤ (rs.map fun p => p.1).length • 600 :=
    List.sum_le_card_nsmul _ _ fun x hx => by
      obtain ⟨p, hp, rfl⟩ := List.mem_map.1 hx
      exact h p hp
  rw [List.length_map, smul_eq_mul] at hs
  exact Nat.div_le_of_le_mul hs

/-! ### What the estimate is made of -/

/-- The fields that the ranges of the estimate speak of. -/
def State.observation (s : State) : Params × List Source × Option Filter × Option Nat := (s.params, s.sources, s.filter, s.sector)

theorem EstimateRanges.of_observation {s t : State} (e : t.observation = s.observation) (h : EstimateRanges s) : EstimateRanges t := by
  simp only [State.observation, Prod.mk.injEq] at e
  obtain ⟨hp, hs, hf, hk⟩ := e
  simpa only [EstimateRanges, hp, hs, hf, hk] using h

theorem Steady.observation {s t : State} (h : Steady s t) : t.observation = s.observation := by
  simp only [State.observation, h.params, h.sources, h.filter, h.sector]

theorem observation_notify (s : State) (n : Notice) : (s.notify n).observation = s.observation := rfl

theorem observation_tally (s : State) (g : Counters → Counters) : (s.tally g).observation = s.observation := rfl

theorem observation_completeWaves (s : State) : s.completeWaves.observation = s.observation :=
  (steady_propagates.completeWaves s).observation

/-- The readings of a source list lie in their ranges (R21). -/
def ReadingsOk (l : List Source) : Prop := ∀ x ∈ l, ∀ p ∈ x.reading, p.1 ≤ 600 ∧ p.2 ≤ 3599

/-- A change of the sources that keeps their readings in range. -/
theorem EstimateRanges.with_sources {s : State} (h : EstimateRanges s) {l : List Source} (hl : ReadingsOk l) :
    EstimateRanges { s with sources := l } := by
  obtain ⟨h1, h2, -, h4, h5⟩ := h
  exact ⟨h1, h2, hl, h4, h5⟩

/-- A change of each source that keeps its reading, or gives it one in range. -/
theorem EstimateRanges.map_sources {s : State} (h : EstimateRanges s) (g : Source → Source)
    (hg : ∀ x, (g x).reading = x.reading ∨ ∀ p ∈ (g x).reading, p.1 ≤ 600 ∧ p.2 ≤ 3599) :
    EstimateRanges { s with sources := s.sources.map g } :=
  h.with_sources fun y hy p hp => by
    obtain ⟨x, hx, rfl⟩ := List.mem_map.1 hy
    rcases hg x with e | e
    · exact h.2.2.1 x hx p (e ▸ hp)
    · exact e p hp

theorem EstimateRanges.observe {s : State} (h : EstimateRanges s) (k : SourceKind) (n v d : Nat) : EstimateRanges (s.observe k n v d) :=
  h.map_sources _ fun x => by
    split
    · rename_i hx
      refine .inr fun p hp => ?_
      cases hp
      exact ⟨Nat.min_le_left _ _, by have := hx.2.2; dsimp only; omega⟩
    · exact .inl rfl

theorem EstimateRanges.judgeSources {s : State} (h : EstimateRanges s) : EstimateRanges s.judgeSources :=
  h.map_sources _ fun _ => .inl rfl

/-- The filtered direction names a sector (R32). -/
theorem EstimateRanges.df_div_le {s : State} (h : EstimateRanges s) : s.df / 150 ≤ 23 := by
  obtain ⟨-, -, -, hf, -⟩ := h
  unfold State.df
  cases e : s.filter with
  | none => simp
  | some f =>
    have := hf f e
    simp only [Option.map_some, Option.getD_some]
    omega

/-- The sector of the filtered direction keeps the ranges (R32, R33). -/
theorem EstimateRanges.judgeSector {s : State} (h : EstimateRanges s) : EstimateRanges s.judgeSector := by
  have hs : EstimateRanges { s with sector := some (s.df / 150) } :=
    ⟨h.1, h.2.1, h.2.2.1, h.2.2.2.1, fun k hk => by cases hk; exact h.df_div_le⟩
  unfold State.judgeSector
  split
  · exact hs
  · split
    · exact h
    · dsimp only
      split
      · refine hs.of_observation ?_
        rw [State.veer, observation_notify, observation_tally, observation_completeWaves]
        exact (steady_propagates.cancelUnreleased _).observation
      · exact hs

/-- The estimate step keeps the ranges (R26 to R33). -/
theorem EstimateRanges.estimate {s : State} (h : EstimateRanges s) : EstimateRanges s.estimate := by
  have h1 := h.judgeSources
  have hread : ∀ p ∈ s.judgeSources.freshReadings, p.1 ≤ 600 ∧ p.2 ≤ 3599 := fun p hp => by
    obtain ⟨x, hx, hr⟩ := List.mem_filterMap.1 hp
    exact h1.2.2.1 x (List.mem_of_mem_filter hx) p hr
  unfold State.estimate
  dsimp only
  generalize s.judgeSources = u at *
  obtain ⟨hss, hds, hsrc, hf, hk⟩ := h1
  split
  · exact ⟨hss, hds, hsrc, hf, hk⟩
  · rename_i r rs e
    rw [e] at hread
    have hraw := rawSpeed_le fun p hp => (hread p hp).1
    have hdir := (hread r List.mem_cons_self).2
    split
    · refine ⟨hss, hds, hsrc, fun f hf => ?_, fun k hk => ?_⟩
      · cases hf; dsimp only; omega
      · cases hk; omega
    · rename_i f hfs
      obtain ⟨s0, s1, d0, d1⟩ := hf f hfs
      refine EstimateRanges.judgeSector (s := { u with filter := _, mark := _ }) ⟨hss, hds, hsrc, fun g hg => ?_, hk⟩
      cases hg
      obtain ⟨a, b⟩ := speedStep_range (shift := u.params.speedShift) s0 s1 hraw
      obtain ⟨c, d⟩ := directionStep_range (raw := r.2) (shift := u.params.directionShift) d0 d1
      exact ⟨a, b, c, d⟩

/-! ### The operations that leave the estimate alone -/

theorem observation_closeForming (s : State) : s.closeForming.observation = s.observation := by
  unfold State.closeForming
  split
  · rfl
  · split
    · rfl
    · rename_i w _ _ sec p _
      dsimp only
      rw [observation_completeWaves, observation_notify, observation_tally]
      split
      · exact (steady_propagates.enterHolding (s.closedState w sec p) _ _).observation
      · rfl

theorem observation_takeInto (s : State) (num : Nat) (items : List Item) (last : Bool) :
    (s.takeInto num items last).observation = s.observation := by
  unfold State.takeInto
  rw [State.gather_eq]
  dsimp only
  split
  · exact observation_closeForming _
  · rfl

theorem observation_openOrFold (s : State) (set : Nat) (items : List Item) (last : Bool) :
    (s.openOrFold set items last).observation = s.observation := by
  unfold State.openOrFold
  split
  · exact observation_takeInto (s.openWave set).1 _ _ _
  · unfold State.foldItems
    split
    · rfl
    · dsimp only
      rw [State.foldl_foldItem_eq]
      rfl

theorem observation_intake (s : State) (set : Nat) (last : Bool) (items : List Item) :
    (s.intake set last items).observation = s.observation := by
  unfold State.intake
  split
  · split
    · exact observation_takeInto s _ _ _
    · exact (observation_openOrFold _ _ _ _).trans (observation_closeForming s)
  · exact observation_openOrFold s _ _ _

theorem observation_enterReturn_settle (s : State) (c : ModeCause) (n : NeutralCause) :
    (s.enterReturn c n).settle.observation = s.observation :=
  ((steady_enterReturn s c n).trans (steady_settle _)).observation

theorem observation_stormEvent (s : State) : s.stormEvent.observation = s.observation := by
  unfold State.stormEvent
  split
  · exact observation_enterReturn_settle s _ _
  · exact observation_enterReturn_settle s _ _
  all_goals rfl

theorem observation_lapseExpire (s : State) : s.lapseExpire.observation = s.observation := by
  have key : ∀ u : State, u.observation = s.observation → (match u.mode with
      | .steer | .drain => (u.enterReturn .lapse .lapse).settle
      | .pass | .returning => u).observation = s.observation := fun u hu => by
    split
    · exact (observation_enterReturn_settle u _ _).trans hu
    · exact (observation_enterReturn_settle u _ _).trans hu
    · exact hu
    · exact hu
  unfold State.lapseExpire
  refine key _ ?_
  split <;> rfl

theorem observation_stormEdge (s : State) (level : Bool) : (s.stormEdge level).observation = s.observation := by
  unfold State.stormEdge
  dsimp only
  split
  · exact observation_stormEvent { s with stormLine := level, storm := false }
  · split
    · exact observation_stormEvent { s with stormLine := level, storm := stormFromLevel s.params.stormEdge level }
    · rfl

theorem observation_loseD (s : State) : s.loseD.observation = s.observation := by
  unfold State.loseD
  dsimp only
  split <;> rfl

theorem observation_forward (s : State) (p : Port) (f : EthFrame) : (s.forward p f).observation = s.observation := by
  unfold State.forward
  cases p <;> dsimp only <;> split <;> rfl

theorem observation_serveArbiter (s : State) : s.serveArbiter.observation = s.observation :=
  (steady_propagates.serveArbiter s).observation

theorem observation_settle (s : State) : s.settle.observation = s.observation := (steady_settle s).observation

theorem observation_settleAfter (s : State) (released : List Nat) : (s.settleAfter released).observation = s.observation :=
  (steady_propagates.settleAfter s released).observation

theorem observation_takeDeadline (s : State) (n : Nat) : (s.takeDeadline n).observation = s.observation := by
  unfold State.takeDeadline
  split
  · split
    · exact (observation_settle _).trans (steady_propagates.stall s _).observation
    · rfl
  · rfl

theorem observation_takeTest (s : State) (k : Nat × Nat) : (s.takeTest k).observation = s.observation := observation_settle _

theorem observation_takeOwedTest (s : State) (k : Nat × Nat) : (s.takeOwedTest k).observation = s.observation := by
  unfold State.takeOwedTest
  split
  · exact observation_takeTest s k
  · rfl

theorem observation_takeQuiet (s : State) : s.takeQuiet.observation = s.observation := by
  unfold State.takeQuiet
  split
  · exact observation_closeForming _
  · rfl

theorem observation_takeLapse (s : State) : s.takeLapse.observation = s.observation := by
  unfold State.takeLapse
  split
  · exact observation_lapseExpire s
  · rfl

theorem observation_fold {α : Type} {f : State → α → State} (hf : ∀ s a, (f s a).observation = s.observation) (l : List α) (s : State) :
    (l.foldl f s).observation = s.observation := by
  induction l generalizing s with
  | nil => rfl
  | cons a l ih => exact (ih _).trans (hf s a)

theorem observation_deliver (s : State) (q : Requester) (quotient : Nat) : (s.deliver q quotient).observation = s.observation := by
  cases q with
  | hold w r =>
    simp only [State.deliver, State.deliverHold]
    split
    · split
      · exact observation_settle _
      · rfl
    · rfl
  | deadline n =>
    simp only [State.deliver, State.deliverDeadline]
    split
    · split <;> rfl
    · rfl

theorem observation_arrival (s : State) : s.arrival.observation = s.observation := by
  unfold State.arrival
  split
  · rfl
  · dsimp only
    split
    · rfl
    · exact observation_deliver _ _ _

theorem observation_setpointOnU (s : State) (f : EthFrame) (a : Addr) (items : List Item) :
    (s.setpointOnU f a items).observation = s.observation := by
  unfold State.setpointOnU
  dsimp only
  split
  · exact observation_forward s _ _
  · have h1 : (if s.mode = .steer then s.intake a.set.toNat (a.flags.getLsbD 0) (items.filter s.takes) else s).observation =
        s.observation := by
      split
      · exact observation_intake s _ _ _
      · rfl
    split
    · exact h1
    · exact (observation_forward _ _ _).trans h1

theorem observation_tapRecord (s : State) (n : Nat) (r : ReportBody) : (s.tapRecord n r).observation = s.observation := by
  unfold State.tapRecord
  split
  · rfl
  · exact (observation_settle _).trans (steady_propagates.arbiterReport _ _).observation

/-! ### What every command makes of the ranges -/

/-- The estimate step that fell due keeps the ranges. -/
theorem EstimateRanges.takeEstimate {s : State} (h : EstimateRanges s) : EstimateRanges s.takeEstimate := by
  unfold State.takeEstimate
  split
  · exact (EstimateRanges.estimate (s := { s with estimateDue := false }) h).of_observation (observation_settle _)
  · exact h

theorem EstimateRanges.closeCount {s : State} (h : EstimateRanges s) : EstimateRanges s.closeCount :=
  EstimateRanges.takeEstimate <| h.of_observation <| by
    rw [observation_takeLapse, observation_takeQuiet, observation_fold observation_takeOwedTest, observation_fold observation_takeDeadline]

theorem EstimateRanges.tick {s : State} (h : EstimateRanges s) : EstimateRanges s.tick :=
  (h.map_sources (fun x => { x with age := sat16 (x.age + 1) }) fun _ => .inl rfl).of_observation rfl

theorem EstimateRanges.tapReport {s : State} (h : EstimateRanges s) (a : Addr) (r : ReportBody) : EstimateRanges (s.tapReport a r) := by
  unfold State.tapReport
  dsimp only
  split
  · exact (h.observe _ _ _ _).of_observation (observation_tapRecord _ _ _)
  · exact h.of_observation (observation_tapRecord _ _ _)

theorem EstimateRanges.reportOnD {s : State} (h : EstimateRanges s) (f : EthFrame) (a : Addr) (r : ReportBody) :
    EstimateRanges (s.reportOnD f a r) := by
  have h1 : EstimateRanges { s with draws := s.draws + 1 } := h
  unfold State.reportOnD
  dsimp only
  split
  · exact (h1.of_observation (observation_forward _ _ _)).tapReport a r
  · exact (h1.tapReport a r).of_observation (observation_forward _ _ _)

theorem EstimateRanges.metOnD {s : State} (h : EstimateRanges s) (f : EthFrame) (a : Addr) (m : MetBody) :
    EstimateRanges (s.metOnD f a m) := by
  unfold State.metOnD
  split
  · exact (h.observe _ _ _ _).of_observation (observation_forward _ _ _)
  · exact h.of_observation (observation_forward _ _ _)

/-- An accepted value lies in the parameter's range (R178). -/
theorem State.checkSetParam_ok {s : State} {n v : Nat} (h : s.checkSetParam n v = .ok) :
    ∃ lo hi, paramRange n = some (lo, hi) ∧ lo ≤ v ∧ v ≤ hi := by
  unfold State.checkSetParam at h
  split at h
  · cases h
  · rename_i lo hi hr
    split at h
    · cases h
    · split at h
      · rename_i hv; exact ⟨lo, hi, hr, hv⟩
      · cases h

theorem Params.put_speedShift (p : Params) (n v : Nat) : (p.put n v).speedShift = if n = 8 then v else p.speedShift := by
  unfold Params.put; split <;> simp_all

theorem Params.put_directionShift (p : Params) (n v : Nat) : (p.put n v).directionShift = if n = 9 then v else p.directionShift := by
  unfold Params.put; split <;> simp_all

/-- A parameter in its range keeps the ranges of the filter shifts (R177, R178). -/
theorem EstimateRanges.putParam {s : State} (h : EstimateRanges s) {n v : Nat} (hc : s.checkSetParam n v = .ok) :
    EstimateRanges (s.putParam n v) := by
  obtain ⟨hs, hd, hrest⟩ := h
  obtain ⟨lo, hi, hr, hv⟩ := State.checkSetParam_ok hc
  have shift : n = 8 ∨ n = 9 → 1 ≤ v ∧ v ≤ 8 := by
    rintro (rfl | rfl) <;> cases hr <;> exact hv
  refine ⟨?_, ?_, hrest⟩
  · rw [State.putParam, Params.put_speedShift]
    split
    · rename_i hn; exact shift (.inl hn)
    · exact hs
  · rw [State.putParam, Params.put_directionShift]
    split
    · rename_i hn; exact shift (.inr hn)
    · exact hd

theorem EstimateRanges.doRestart {s : State} (h : EstimateRanges s) (e : Env) : EstimateRanges (s.doRestart e) := by
  have h1 : EstimateRanges (s.reply e 18 .ok []).clearSteering.unprime :=
    ⟨h.1, h.2.1, fun y hy => by
      obtain ⟨x, hx, rfl⟩ := List.mem_map.1 hy
      exact h.2.2.1 x hx, nofun, nofun⟩
  refine h1.of_observation ?_
  rw [State.doRestart, State.restartBlocks, State.clearMasks_eq]
  rfl


/-- A configuring request keeps the ranges: a parameter is set in its range, and new sources have no reading yet (R22, R178). -/
theorem EstimateRanges.configure {s : State} (h : EstimateRanges s) (e : Env) {q : Request} (hq : q.configures = true) :
    EstimateRanges (s.execute e q) := by
  cases q with
  | setParam number value =>
    simp only [State.execute, State.doSetParam]
    split
    · rename_i hk; exact h.putParam hk
    · exact h
  | loadSources number entries =>
    simp only [State.execute, State.doLoadSources_eq]
    split
    · refine EstimateRanges.of_observation (s := State.unprime { s with sources := _ }) rfl
        ⟨h.1, h.2.1, fun y hy p hp => ?_, nofun, nofun⟩
      simp only [State.unprime, List.map_map, List.mem_map] at hy
      obtain ⟨x, -, rfl⟩ := hy
      cases hp
    · exact h
  | loadTurbine q =>
    change EstimateRanges (s.doLoadTurbine e q)
    rcases s.doLoadTurbine_cases e q with ⟨-, he⟩ | ⟨-, -, c, -, -, he⟩
    · rw [he]; exact h
    · rw [he, State.loadEntry_eq]; exact h
  | dropTurbine node =>
    simp only [State.execute, State.doDropTurbine]
    split
    · exact h
    · split
      · exact h
      · split <;> exact h
  | loadPlan q =>
    simp only [State.execute, State.doLoadPlan]
    split
    · exact h
    · split
      · exact h
      · split <;> exact h
  | dropPlan sector =>
    simp only [State.execute, State.doDropPlan]
    split
    · exact h
    · split
      · exact h
      · split <;> exact h
  | _ => cases hq

theorem observation_doMode (s : State) (e : Env) (code : Byte) : (s.doMode e code).observation = s.observation := by
  unfold State.doMode
  split
  · unfold State.doModeSteer
    split
    · rfl
    · split <;> rfl
  · split
    · unfold State.doStopKeep
      split
      · exact ((steady_enterDrain (s.reply e 15 .ok _)).trans (steady_settle _)).observation
      · rfl
    · split
      · unfold State.doStopNeutral
        split
        · exact observation_enterReturn_settle (s.reply e 15 .ok _) _ _
        · rfl
      · rfl

theorem observation_doNeutral (s : State) (e : Env) (rows : BitVec 16) : (s.doNeutral e rows).observation = s.observation := by
  unfold State.doNeutral
  split
  · rfl
  · dsimp only
    split
    · rfl
    · rw [observation_settle, (steady_propagates.judgeNeutral _).observation]
      exact observation_fold (fun u r => (observation_completeWaves _).trans (steady_propagates.gainNeutral (u.setMask r true) r).observation) _ _

theorem observation_doMask (s : State) (e : Env) (rows : BitVec 16) (operation : Byte) :
    (s.doMask e rows operation).observation = s.observation := by
  unfold State.doMask
  split
  · refine (observation_settle _).trans (observation_fold (fun u r => ?_) _ _)
    unfold State.maskRow
    split
    · rfl
    · exact (steady_propagates.skipAt (u.setMask r true) _ _).observation
  · split
    · exact observation_fold (f := fun u r => u.setMask r false) (fun _ _ => rfl) _ s
    · rfl

/-- A request keeps the ranges. -/
theorem EstimateRanges.execute {s : State} (h : EstimateRanges s) (e : Env) (q : Request) : EstimateRanges (s.execute e q) := by
  by_cases hq : q.configures = true
  · exact h.configure e hq
  · cases q with
    | setParam | loadTurbine | dropTurbine | loadSources | loadPlan | dropPlan => exact absurd rfl hq
    | mode c => exact h.of_observation (observation_doMode s e c)
    | neutral rows => exact h.of_observation (observation_doNeutral s e rows)
    | mask rows op => exact h.of_observation (observation_doMask s e rows op)
    | restart => exact h.doRestart e
    | status | readNeutral | readCounts => exact h
    | getParam n => simp only [State.execute, State.doGetParam]; split <;> exact h
    | readRow r => simp only [State.execute, State.doReadRow]; split <;> exact h
    | readTurbine a n =>
      simp only [State.execute, State.doReadTurbine]
      split
      · exact h
      · split <;> exact h
    | readWave p i =>
      simp only [State.execute, State.doReadWave]
      split
      · exact h
      · split <;> exact h
    | readPlan sec =>
      simp only [State.execute, State.doReadPlan]
      split
      · exact h
      · split <;> exact h

theorem EstimateRanges.answer {s : State} (h : EstimateRanges s) (e : Env) (code : Byte) (rd : Reading) :
    EstimateRanges (s.answer e code rd) := by
  unfold State.answer
  dsimp only
  split
  · exact h
  · exact h
  · exact EstimateRanges.execute (s := { s with supervisor := e.ethSrc }) h e _

theorem EstimateRanges.forward {s : State} (h : EstimateRanges s) (p : Port) (f : EthFrame) : EstimateRanges (s.forward p f) :=
  h.of_observation (observation_forward s p f)

theorem EstimateRanges.arrive {s : State} (h : EstimateRanges s) (p : Port) (f : EthFrame) (m : Message) :
    EstimateRanges (s.arrive p f m) := by
  unfold State.arrive
  split
  · exact h.forward p f
  · exact h.forward p f
  · refine EstimateRanges.forward ?_ p f
    cases p <;> exact h
  · exact h.of_observation (observation_setpointOnU _ _ _ _)
  · exact h.forward _ f
  · exact h.reportOnD _ _ _
  · exact h.forward _ f
  · exact h.metOnD _ _ _
  · exact h.forward _ f
  · split
    · exact h.answer _ _ _
    · exact h.forward _ f
  · split
    · exact h
    · exact h.forward _ f

theorem EstimateRanges.restartLapse {s : State} (h : EstimateRanges s) : EstimateRanges s.restartLapse := by
  unfold State.restartLapse
  split <;> exact h

theorem EstimateRanges.heard {s : State} (h : EstimateRanges s) (p : Port) (b : Bool) : EstimateRanges (s.heard p b) := by
  unfold State.heard
  split
  · split
    · exact h.restartLapse
    · exact h
  · exact h

theorem EstimateRanges.receive {s : State} (h : EstimateRanges s) (p : Port) (f : EthFrame) : EstimateRanges (s.receive p f) := by
  unfold State.receive
  split
  · split
    · exact (h.heard _ _).arrive _ _ _
    · exact h
  · exact h

theorem EstimateRanges.receiveAs {s : State} (h : EstimateRanges s) (p : Port) (kind : Nat) (a : Addr) (body : List Byte) (m : Message) :
    EstimateRanges (s.receiveAs p kind a body m) := by
  unfold State.receiveAs
  split
  · exact (h.heard _ _).arrive _ _ _
  · exact h

theorem EstimateRanges.manage {s : State} (h : EstimateRanges s) (e : Env) (code : Byte) (fields : List Byte) (rd : Reading) :
    EstimateRanges (s.manage e code fields rd) := by
  have h1 := h.heard .u (e.src == 0)
  unfold State.manage
  split
  · dsimp only
    rw [← heardFrom_eq, ← State.heard_u]
    split
    · exact h1.answer _ _ _
    · exact h1.forward _ _
  · exact h

theorem EstimateRanges.whenRunning {s t : State} (h : EstimateRanges s) (ht : EstimateRanges t) : EstimateRanges (s.whenRunning t) := by
  unfold State.whenRunning
  split
  · exact h
  · exact ht

theorem estimateRanges_reset : EstimateRanges State.reset := ⟨by decide, by decide, nofun, nofun, nofun⟩

/-- Every command keeps the ranges of the estimate. -/
theorem EstimateRanges.exec {c : Instr} {s t : State} (h : EstimateRanges s) (ht : exec c s = .next t) : EstimateRanges t := by
  have keep : ∀ {u : State}, u.observation = s.observation → EstimateRanges (s.whenRunning u) := fun e => h.whenRunning (h.of_observation e)
  cases c with
  | powerOn a b d e f => cases ht; exact estimateRanges_reset.of_observation rfl
  | rstnHold => cases ht; exact keep rfl
  | count => cases ht; exact h.whenRunning h.closeCount.tick
  | estimateStep => cases ht; exact h.whenRunning h.takeEstimate
  | quietTimerExpiry => cases ht; exact keep (observation_takeQuiet s)
  | lapseExpiry => cases ht; exact keep (observation_takeLapse s)
  | deadlineExpiry n => cases ht; exact keep (observation_takeDeadline s n)
  | aReached w r | pReached w r =>
    cases ht
    refine keep ?_
    split
    · exact observation_takeTest s _
    · rfl
  | frameReceived p f => cases ht; exact h.receive p f
  | setpointFrame | reportFrame | metFrame => cases ht; exact h.receiveAs _ _ _ _ _
  | status | setParam | getParam | loadTurbine | dropTurbine | loadSources | loadPlan | dropPlan | readTurbine | readRow
  | readWave | readNeutral | readPlan | readCounts | modeSteer | stopKeep | stopNeutral | neutral | maskSet | maskClear
  | restart | unknownRequest => cases ht; exact h.manage _ _ _ _
  | stormLineChange level =>
    cases ht
    refine keep ?_
    split
    · rfl
    · exact observation_stormEdge s level
  | yawHoldChange level =>
    cases ht
    refine keep ?_
    split
    · rfl
    · split
      · rfl
      · exact observation_serveArbiter { s with yholdLine := level }
  | linkLoss p =>
    cases ht
    refine keep ?_
    cases p <;> dsimp only <;> split
    · rfl
    · rfl
    · exact observation_loseD s
    · rfl
  | linkReturn p =>
    cases ht
    refine keep ?_
    cases p <;> dsimp only <;> split <;> rfl
  | dividerArrival => cases ht; exact keep (observation_arrival s)
  | dividerServiceStart => cases ht; exact keep rfl
  | transmitCompletion p =>
    cases ht
    refine keep ?_
    cases p <;> dsimp only <;> split
    · rfl
    · rfl
    · rename_i f rest _ _
      split
      · exact observation_serveArbiter { s with queueD := rest }
      · rfl
    · rfl
  | stepRelease w r =>
    cases ht
    refine keep ?_
    split
    · rw [observation_settleAfter, observation_completeWaves]
      exact (steady_propagates.releaseStep s w r).observation
    · rfl
  | grant =>
    cases ht
    refine keep ?_
    split
    · rename_i hr hg
      exact (observation_serveArbiter _).trans
        (steady_propagates.grantNode s _ _ (State.grantable_free hg) (State.grantable_room hg)).observation
    · rfl
  | retargetFrame =>
    cases ht
    refine keep ?_
    split
    · split
      · rfl
      · rename_i hf
        exact (observation_serveArbiter _).trans (steady_propagates.retargetNode s _ hf).observation
    · rfl
  | waveCompletion w =>
    cases ht
    refine keep ?_
    split
    · split
      · exact (observation_settle _).trans (steady_propagates.completeWave s _).observation
      · rfl
    · rfl
  | drainEnd | returnEnd =>
    cases ht
    refine keep ?_
    split <;> rfl

/-- Settles O5: a step runs the front command, and each command keeps the ranges or leaves the estimate alone. -/
theorem estimateRangesKept : Obligations.EstimateRangesKept := by
  intro s t hs hst
  rcases step_next hst with ⟨-, rfl⟩ | ⟨c, rest, -, hx⟩
  · exact hs
  · exact EstimateRanges.exec (s := { s with pending := rest }) hs hx

end Sys2Proof.Machine

/-! The estimate step by its cases (R26 to R34), and what it leaves where no source is fresh or the unit is unprimed. -/

namespace Sys2Proof.Machine

/-! ### The estimate step (R26) -/

theorem State.whenRunning_open {s t : State} (h : s.relayClosed = false) : s.whenRunning t = t := by simp [State.whenRunning, h]

theorem exec_estimateStep {s : State} (hr : s.relayClosed = false) (hd : s.estimateDue = true) :
    exec .estimateStep s = .next (State.estimate { s with estimateDue := false }).settle := by
  change Host.Outcome.next (s.whenRunning s.takeEstimate) = _
  rw [State.whenRunning_open hr, State.takeEstimate, if_pos hd]

theorem exec_estimateStep_not_due {s : State} (hd : s.estimateDue = false) : exec .estimateStep s = .next s := by
  change Host.Outcome.next (s.whenRunning s.takeEstimate) = _
  rw [State.whenRunning, State.takeEstimate, hd]
  simp

theorem State.judgeSources_eq (s : State) : s.judgeSources = { s with sources := judgedSources s } := rfl

/-- The fresh readings are those of the sources judged fresh (R25, R26). -/
theorem State.freshReadings_judgeSources (s : State) : s.judgeSources.freshReadings = freshReadingsAt s := by
  have e : (fun x => Source.fresh x) ∘ (fun x : Source => { x with fresh := x.isFresh s.params.staleness }) = freshAt s := rfl
  simp only [State.freshReadings, State.judgeSources, List.filter_map, List.filterMap_map, e]
  rfl

theorem State.estimate_stale {s : State} (h : freshReadingsAt s = []) :
    s.estimate = { s with sources := judgedSources s, mark := .stale } := by
  unfold State.estimate
  dsimp only
  rw [State.freshReadings_judgeSources, h]
  rfl

/-- The state as an unprimed unit primes with a reading `r` of its first fresh source (R28, R32). -/
def State.primed (s : State) (r : Nat × Nat) : State :=
  { s with
    sources := judgedSources s, mark := .fresh
    filter := some ⟨(rawSpeed (freshReadingsAt s) : Int) * 256, (r.2 : Int) * 256⟩, sector := some (r.2 / 150) }

theorem State.estimate_primes {s : State} {r : Nat × Nat} {rest : List (Nat × Nat)} (h : freshReadingsAt s = r :: rest)
    (hf : s.filter = none) : s.estimate = (s.primed r).evaluateLatches := by
  unfold State.estimate State.primed
  dsimp only
  rw [State.freshReadings_judgeSources, h]
  simp only [State.judgeSources_eq, hf]

/-- The accumulators after a primed unit filters, with a reading `r` of its first fresh source (R29, R30). -/
def State.filteredBy (s : State) (f : Filter) (r : Nat × Nat) : Filter :=
  ⟨speedStep f.speed (rawSpeed (freshReadingsAt s)) s.params.speedShift, directionStep f.direction r.2 s.params.directionShift⟩

/-- The state with its accumulators filtered and its mark FRESH, before the sector is judged (R26). -/
def State.filtered (s : State) (f : Filter) : State := { s with sources := judgedSources s, mark := .fresh, filter := some f }

theorem State.estimate_filters {s : State} {r : Nat × Nat} {rest : List (Nat × Nat)} {f : Filter} (h : freshReadingsAt s = r :: rest)
    (hf : s.filter = some f) : s.estimate = (s.filtered (s.filteredBy f r)).judgeSector.evaluateLatches := by
  unfold State.estimate State.filtered State.filteredBy
  dsimp only
  rw [State.freshReadings_judgeSources, h]
  simp only [State.judgeSources_eq, hf]

theorem steady_evaluateLatches (s : State) : Steady s s.evaluateLatches := { Steady.refl s with }

/-- Settles O46: the three cases of the estimate step in which no filter is updated; what follows at the event's end is propagation. -/
theorem estimateHoldsOrPrimes : Obligations.EstimateHoldsOrPrimes := by
  refine ⟨fun s => exec_estimateStep_not_due, fun s hr hd hf => ?_, fun s speed direction rest hr hd hf hn => ?_⟩
  · refine ⟨_, exec_estimateStep hr hd, ?_, ?_⟩
    · rw [State.estimate_stale (s := { s with estimateDue := false }) hf]
      exact quiet_propagates.settle _
    · rw [State.estimate_stale (s := { s with estimateDue := false }) hf]
      exact steady_settle _
  · refine ⟨_, exec_estimateStep hr hd, ?_, ?_⟩
    · rw [State.estimate_primes (s := { s with estimateDue := false }) hf hn]
      exact quiet_propagates.settle _
    · rw [State.estimate_primes (s := { s with estimateDue := false }) hf hn]
      exact (steady_evaluateLatches (State.primed { s with estimateDue := false } (speed, direction))).trans (steady_settle _)

end Sys2Proof.Machine

/-! The end of an event in which one step can release (R82, R85): its release ends the tests, and no step that has released waits again. -/

namespace Sys2Proof.Machine

/-! ### Release tests that do nothing -/

theorem State.releaseLoop_none {s : State} (hr : ∀ n r, s.canRelease n r = true → s.owesTest (n, r) = true)
    (ha : ∀ n r, s.owesAction n r = true → s.owesTest (n, r) = true ∨ s.owesDeadline (n, r) = true) (fuel : Nat) (released : List Nat) :
    State.releaseLoop fuel released s = s := by
  cases fuel with
  | zero => rfl
  | succ fuel =>
    have e1 : s.releasable released = [] := List.filter_eq_nil_iff.2 fun k _ hk => by
      simp only [Bool.and_eq_true, Bool.not_eq_true'] at hk
      exact absurd (hr k.1 k.2 hk.1.1) (by simp [hk.1.2])
    have e2 : s.actionable = [] := List.filter_eq_nil_iff.2 fun k _ hk => by
      simp only [Bool.and_eq_true, Bool.not_eq_true'] at hk
      rcases ha k.1 k.2 hk.1.1 with h | h
      · exact absurd h (by simp [hk.1.2])
      · exact absurd h (by simp [hk.2])
    simp only [State.releaseLoop, e1, e2, State.choose]

/-- Every HOLDING step awaits its hold time, unforced (R77). -/
def OnlyAwaiting (s : State) : Prop := ∀ n r st, s.step? n r = some st → st.state = .holding → st.Awaits

theorem OnlyAwaiting.releaseLoop {s : State} (h : OnlyAwaiting s) (fuel : Nat) (released : List Nat) :
    State.releaseLoop fuel released s = s := by
  refine State.releaseLoop_none (fun n r hc => ?_) (fun n r hc => ?_) fuel released
  · obtain ⟨w, st, hw, hst, hh, ha, -⟩ := s.canRelease_spec hc
    exact absurd (h n r st (by rw [State.step?, hw]; exact hst) hh) ha
  · obtain ⟨st, p, hst, hh, -, hp, -⟩ := s.owesAction_spec hc
    rw [(h n r st hst hh).cmpP] at hp
    cases hp

/-! ### The keys of the steps -/

theorem mem_stepKeys_iff {s : State} {n r : Nat} :
    (n, r) ∈ s.stepKeys ↔ ∃ w ∈ s.waves, w.running = true ∧ w.num = n ∧ ∃ st ∈ w.steps, st.row = r := by
  simp only [State.stepKeys, List.mem_flatMap, List.mem_filter, List.mem_map, Prod.mk.injEq]
  constructor
  · rintro ⟨w, ⟨hw, hr⟩, st, hst, hn, hq⟩
    exact ⟨w, hw, hr, hn, st, hst, hq⟩
  · rintro ⟨w, hw, hr, hn, st, hst, hq⟩
    exact ⟨w, ⟨hw, hr⟩, st, hst, hn, hq⟩

theorem WavesOk.stepKeys_nodup {s : State} (h : WavesOk s) : s.stepKeys.Nodup := by
  refine List.nodup_flatMap.2 ⟨fun w hw => ?_, ?_⟩
  · refine List.Nodup.of_map Prod.snd ?_
    rw [List.map_map]
    exact h.rows_nodup (List.mem_filter.1 hw).1
  · refine ((List.pairwise_map.1 h.nums_nodup).filter _).imp fun {a b} hne => ?_
    intro k ha hb
    obtain ⟨_, -, rfl⟩ := List.mem_map.1 ha
    obtain ⟨_, -, e⟩ := List.mem_map.1 hb
    exact hne (congrArg Prod.fst e).symm

/-- A step that can release is one of a RUNNING wave. -/
theorem State.canRelease_mem {s : State} {n r : Nat} (h : s.canRelease n r = true) : (n, r) ∈ s.stepKeys := by
  obtain ⟨w, st, hw, hst, -⟩ := s.canRelease_spec h
  obtain ⟨hm, hn⟩ := State.wave?_mem hw
  obtain ⟨hm', hq⟩ := Wave.step?_mem hst
  refine mem_stepKeys_iff.2 ⟨w, hm, ?_, hn, st, hm', hq⟩
  simp only [State.canRelease, hw, Bool.and_eq_true] at h
  exact h.1

/-! ### One step releases -/

/-- The step is the only one that is HOLDING, and no other step of its wave carries the forced mark. -/
structure Lone (s : State) (n r : Nat) : Prop where
  holding : ∀ m q st, s.step? m q = some st → st.state = .holding → m = n ∧ q = r
  unforced : ∀ q st, s.step? n q = some st → st.forced = true → q = r

/-- A release leaves no step HOLDING but a successor that awaits its hold time. -/
theorem Lone.released {s : State} (h : WavesOk s) {n r : Nat} (hl : Lone s n r) (hc : s.canRelease n r = true) :
    OnlyAwaiting (s.releaseStep n r).completeWaves := by
  obtain ⟨w, st, hw, hst, hh, -⟩ := s.canRelease_spec hc
  have hg := goes_releaseStep h hw hst (by rw [hh]; rfl)
  have hok := wavesOk_of_shaped h (steady_propagates.releaseStep s n r).plans (steady_propagates.releaseStep s n r).waveCounter
    (shaped_releaseStep h hw hst)
  intro m q c hcs hcs'
  obtain ⟨b, hb, rfl⟩ := (goes_completeWaves (Q := fun _ _ a b => b = a) (fun _ _ _ => rfl) hok).kept_from hcs
  obtain ⟨a, ha, e⟩ := hg.kept_from hb
  unfold Releases at e
  split at e
  · rcases e with e | e <;> rw [e] at hcs' <;> cases hcs'
  · rename_i hne
    rcases e with rfl | ⟨rfl, -, -, rfl⟩
    · exact absurd (hl.holding m q _ ha hcs') hne
    · refine ⟨rfl, rfl, rfl, ?_⟩
      by_contra hf
      exact hne ⟨rfl, hl.unforced q a ha (by simpa [WaveStep.start] using hf)⟩

theorem Lone.releasable {s : State} (h : WavesOk s) {n r : Nat} (hl : Lone s n r) (hc : s.canRelease n r = true)
    (ho : s.owesTest (n, r) = false) : s.releasable [] = [(n, r)] := by
  have e : s.releasable [] = s.stepKeys.filter fun k => k = (n, r) := List.filter_congr fun k _ => by
    by_cases hk : k = (n, r)
    · subst hk
      simp [hc, ho]
    · have : s.canRelease k.1 k.2 = false := Bool.eq_false_iff.2 fun hc' => by
        obtain ⟨w, st, hw, hst, hh, -⟩ := s.canRelease_spec hc'
        obtain ⟨h1, h2⟩ := hl.holding k.1 k.2 st (by rw [State.step?, hw]; exact hst) hh
        exact hk (Prod.ext h1 h2)
      simp [this, hk]
  rw [e, List.filter_eq, List.count_eq_one_of_mem h.stepKeys_nodup (s.canRelease_mem hc)]
  rfl

/-- Where the only HOLDING step can release, the end of an event is its release (R85). -/
theorem Lone.settle {s : State} (h : WavesOk s) {n r : Nat} (hl : Lone s n r) (hc : s.canRelease n r = true)
    (ho : s.owesTest (n, r) = false) : s.settle = (s.releaseStep n r).completeWaves.settleAfter [n] := by
  have hu := hl.released h hc
  unfold State.settle State.settleAfter State.releaseTests
  rw [State.releaseLoop, hl.releasable h hc ho]
  simp only [State.choose, hu.releaseLoop]

/-! ### A released step stays released -/

/-- The step named by a wave number and a row is not WAITING or HOLDING, if there is one. -/
def ReleasedAt (s : State) (n r : Nat) : Prop := ∀ w ∈ s.waves, w.num = n → ∀ st ∈ w.steps, st.row = r → ¬st.state.unreleased

namespace ReleasedAt

variable {s t : State} {n r : Nat}

theorem of_waves (h : ReleasedAt s n r) (e : t.waves = s.waves) : ReleasedAt t n r := by rwa [ReleasedAt, e]

theorem updStep (h : ReleasedAt s n r) (m q : Nat) {g : WaveStep → WaveStep} (hg : ∀ x, (g x).row = x.row)
    (hs : m = n → q = r → ∀ x : WaveStep, ¬x.state.unreleased → ¬(g x).state.unreleased) : ReleasedAt (s.updStep m q g) n r := by
  intro w' hw' hn st' hst' hr
  obtain ⟨w, hw, rfl⟩ := List.mem_map.1 hw'
  split at hn
  · rename_i hm
    rw [if_pos hm] at hst'
    obtain ⟨st, hst, rfl⟩ := List.mem_map.1 hst'
    split at hr
    · rename_i hq
      rw [if_pos hq]
      rw [hg] at hr
      exact hs (hm.symm.trans hn) (hq.symm.trans hr) _ (h w hw hn st hst hr)
    · rename_i hq
      rw [if_neg hq]
      exact h w hw hn st hst hr
  · rename_i hm
    rw [if_neg hm] at hst'
    exact h w hw hn st' hst' hr

theorem trigger (h : ReleasedAt s n r) (m q : Nat) : ReleasedAt (s.trigger m q) n r := by
  unfold State.trigger
  split
  · rename_i nxt hn
    obtain ⟨w, hw, hs⟩ := Option.bind_eq_some_iff.1 hn
    obtain ⟨hm, rfl⟩ := State.wave?_mem hw
    split
    · rename_i hwait
      unfold State.enterHolding
      split
      · exact h
      · split
        · exact h
        · refine (h.updStep w.num nxt.row (g := WaveStep.start) (fun _ => rfl) fun hnum hrow => ?_).of_waves rfl
          exact absurd (.inl hwait) (h w hm hnum nxt (Wave.successor_mem hs) hrow)
    · exact h
  · exact h

theorem grantedLow (h : ReleasedAt s n r) (m q : Nat) : ReleasedAt (s.grantedLow m q) n r := by
  unfold State.grantedLow
  split
  · exact h
  · rename_i st _
    have hlast : ∀ u : State, ReleasedAt u n r → ReleasedAt (if st.state = .releasing ∧ u.queuedFor m q = [] then
        u.updStep m q fun x => { x with state := .moving } else u) n r := fun u hu => by
      split
      · exact hu.updStep m q (fun _ => rfl) fun _ _ _ _ => by simp [StepState.unreleased]
      · exact hu
    have hrel : ReleasedAt (s.updStep m q fun x => { x with rel := some x.hold }) n r := h.updStep m q (fun _ => rfl) fun _ _ _ hx => hx
    dsimp only
    refine hlast _ ?_
    split
    · split
      · exact hrel.trigger m q
      · exact hrel
    · exact h

theorem arbiterStep (h : ReleasedAt s n r) (e : s.arbiterStep = some t) : ReleasedAt t n r := by
  have tell : ∀ (u : State) (o : Option Owner), ReleasedAt u n r → ReleasedAt (u.tellGranted o) n r := fun u o hu => by
    unfold State.tellGranted
    split
    · exact hu.grantedLow _ _
    · exact hu.of_waves (by unfold State.grantedNeutral; split <;> rfl)
    · exact hu
  unfold State.arbiterStep at e
  split at e
  · split at e
    · cases e
    · cases e
      refine h.of_waves ?_
      unfold State.retargetNode
      dsimp only
      split <;> rfl
  · obtain ⟨⟨node, c⟩, -, rfl⟩ := Option.map_eq_some_iff.1 e
    unfold State.grantNode
    cases c <;> dsimp only <;> split
    · exact h.of_waves rfl
    · exact tell _ _ (h.of_waves rfl)
    · exact h.of_waves rfl
    · exact tell _ _ (h.of_waves rfl)

theorem serveArbiter (h : ReleasedAt s n r) : ReleasedAt s.serveArbiter n r := by
  unfold State.serveArbiter
  generalize s.retargets.length + s.high.length + s.low.length = fuel
  induction fuel generalizing s with
  | zero => exact h
  | succ fuel ih =>
    unfold State.arbiterLoop
    split
    · rename_i t e; exact ih (h.arbiterStep e)
    · exact h

end ReleasedAt

theorem State.judgeEnd_waves (s : State) : s.judgeEnd.waves = s.waves := by
  unfold State.judgeEnd
  split
  · rfl
  · split <;> rfl

/-- The step that releases is not WAITING or HOLDING at the end of its event (R90). -/
theorem Lone.releasedAt {s : State} (h : WavesOk s) {n r : Nat} (hl : Lone s n r) (hc : s.canRelease n r = true) :
    ReleasedAt ((s.releaseStep n r).completeWaves.settleAfter [n]) n r := by
  obtain ⟨w, st, hw, hst, hh, -⟩ := s.canRelease_spec hc
  have hg := goes_releaseStep h hw hst (by rw [hh]; rfl)
  have hp := steady_propagates.releaseStep s n r
  have hok := wavesOk_of_shaped h hp.plans hp.waveCounter (shaped_releaseStep h hw hst)
  have h1 : ReleasedAt (s.releaseStep n r) n r := fun w' hw' hnum st' hst' hrow => by
    have hs := hok.step?_of_mem hw' hst'
    rw [hnum, hrow] at hs
    obtain ⟨a, -, e⟩ := hg.kept_from hs
    rw [Releases, if_pos ⟨rfl, rfl⟩] at e
    rcases e with e | e <;> simp [e, StepState.unreleased]
  have h2 : ReleasedAt (s.releaseStep n r).completeWaves n r := fun w' hw' => by
    rw [completeWaves_waves hok] at hw'
    exact h1 w' (List.mem_filter.1 hw').1
  unfold State.settleAfter State.releaseTests
  rw [(hl.released h hc).releaseLoop]
  exact (h2.of_waves (State.judgeEnd_waves _)).serveArbiter

/-! ### The latches at an estimate step (R36) -/

/-- A change of every record that keeps its number and its steps. -/
theorem step?_mapWaves (s : State) {g : Wave → Wave} (hn : ∀ w, (g w).num = w.num) (hs : ∀ w, (g w).steps = w.steps) (n r : Nat) :
    ({ s with waves := s.waves.map g } : State).step? n r = s.step? n r := by
  have e : ({ s with waves := s.waves.map g } : State).wave? n = (s.wave? n).map g := find?_map_key (fun w : Wave => w.num) g hn n s.waves
  rw [State.step?, e, State.step?]
  cases s.wave? n with
  | none => rfl
  | some w => simp only [Option.map_some, Option.bind_some, Wave.step?, hs]

theorem Wave.evaluateLatches_same (w : Wave) (df uf a b : Nat) : (w.evaluateLatches df uf a b).num = w.num ∧
    (w.evaluateLatches df uf a b).running = w.running ∧ (w.evaluateLatches df uf a b).steps = w.steps := by
  unfold Wave.evaluateLatches
  split <;> exact ⟨rfl, rfl, rfl⟩

theorem step?_evaluateLatches (s : State) (n r : Nat) : s.evaluateLatches.step? n r = s.step? n r :=
  step?_mapWaves s (fun w => (w.evaluateLatches_same _ _ _ _).1) (fun w => (w.evaluateLatches_same _ _ _ _).2.2) n r

theorem wavesOk_evaluateLatches {s : State} (h : WavesOk s) : WavesOk s.evaluateLatches :=
  wavesOk_of_shaped h rfl rfl <| by
    have e : s.evaluateLatches.waves.map Wave.shape = s.waves.map Wave.shape := by
      simp only [State.evaluateLatches, List.map_map]
      refine List.map_congr_left fun w _ => ?_
      obtain ⟨h1, h2, h3⟩ := w.evaluateLatches_same s.df s.uf s.params.wThreshold s.params.gThreshold
      simp only [Function.comp, Wave.shape, h1, h2, h3]
    rw [Shaped, e]

/-- A direction lies in the widened band of its own sector (R32, R33). -/
theorem inBand_own (d h : Nat) : inBand d (d / 150) h = true := by
  unfold inBand
  refine decide_eq_true ?_
  omega

/-- Where the judgement of the sector leaves the sector as it was, it has changed nothing (R33). -/
theorem State.judgeSector_same {s : State} {k : Nat} (hk : s.sector = some k) (h : s.judgeSector.sector = some k) : s.judgeSector = s := by
  unfold State.judgeSector at h ⊢
  rw [hk] at h ⊢
  dsimp only at h ⊢
  cases hb : inBand s.df k s.params.hysteresis with
  | true => simp
  | false =>
    have hsec : s.df / 150 = k := by
      rw [hb] at h
      rw [if_neg Bool.false_ne_true] at h
      split at h
      · have e : ∀ u : State, (u.veer k (s.df / 150)).sector = u.sector := fun u =>
          ((steady_propagates.completeWaves _).sector.trans (steady_propagates.cancelUnreleased u).sector :)
        rw [e] at h
        exact Option.some.inj h
      · exact Option.some.inj h
    rw [← hsec, inBand_own] at hb
    cases hb

theorem State.owesTest_eq {s : State} {n r : Nat} {st : WaveStep} (h : s.step? n r = some st) : s.owesTest (n, r) = st.owesTest := by
  simp only [State.owesTest, h]

theorem State.owesDeadline_eq {s : State} {n r : Nat} {st : WaveStep} (h : s.step? n r = some st) :
    s.owesDeadline (n, r) = st.owesDeadline := by
  simp only [State.owesDeadline, h]

theorem exec_stepRelease {s : State} {n r : Nat} (ho : s.relayClosed = false) (hc : s.canRelease n r = true) :
    exec (.stepRelease n r) s = .next ((s.releaseStep n r).completeWaves.settleAfter [n]) := by
  change Host.Outcome.next (s.whenRunning _) = _
  rw [State.whenRunning_open ho, if_pos hc]

/-- A state whose steps, but for the latches, are those of another, in which no step can release or act and nothing is queued. -/
theorem State.settle_nothing {s L : State} (hsteps : ∀ n r, L.step? n r = s.step? n r)
    (hrel : ∀ n r, L.canRelease n r = true → ∃ st, s.step? n r = some st ∧ st.owesTest = true) (hp : NoneAtP s)
    (hq : NothingQueued L) (hm : ModeStands L) : L.settle = L := by
  unfold State.settle State.settleAfter State.releaseTests
  rw [State.releaseLoop_none, State.judgeEnd_stands hm, State.serveArbiter_nothing hq]
  · intro n r hc
    obtain ⟨st, hst, ht⟩ := hrel n r hc
    rw [State.owesTest_eq ((hsteps n r).trans hst), ht]
  · intro n r hc
    obtain ⟨st, p, hst, hh, hf, hcp, hle⟩ := L.owesAction_spec hc
    rw [State.owesTest_eq hst, State.owesDeadline_eq hst]
    obtain ⟨w, hw, -, hm, -⟩ := State.step?_mem ((hsteps n r).symm.trans hst)
    by_contra hno
    simp only [not_or, Bool.not_eq_true] at hno
    exact absurd (hp w hw st hm hh hf hno.1 hno.2 p hcp) (Nat.not_lt.2 hle)

/-- Settles O48: with the sector as it was, the estimate step sets the latches, and what follows is the end of the event. -/
theorem latchesEvaluated : Obligations.LatchesEvaluated := by
  intro s hr hd hfresh hfilter hsector
  obtain ⟨r, rest, hrs⟩ := List.exists_cons_of_ne_nil hfresh
  obtain ⟨f, hf⟩ := Option.ne_none_iff_exists'.1 hfilter
  obtain ⟨k, hk⟩ := Option.ne_none_iff_exists'.1 hsector
  refine ⟨_, exec_estimateStep hr hd, fun hsec _ => ?_⟩
  rw [State.estimate_filters (s := { s with estimateDue := false }) hrs hf] at *
  generalize hv : State.filtered { s with estimateDue := false } (State.filteredBy { s with estimateDue := false } f r) = v at *
  have hvk : v.sector = some k := by rw [← hv]; exact hk
  have hsame : v.judgeSector = v := State.judgeSector_same hvk <| by
    rw [← hk, ← hsec]
    exact (((steady_evaluateLatches _).trans (steady_settle _)).sector).symm
  rw [hsame]
  have hsteady := steady_settle v.evaluateLatches
  intro latched
  have hlatched : latched = v.evaluateLatches := by
    have hfil : v.evaluateLatches.settle.filter = v.filter := hsteady.filter
    have hdf : v.evaluateLatches.settle.df = v.df := by rw [State.df, hfil]; rfl
    have huf : v.evaluateLatches.settle.uf = v.uf := by rw [State.uf, hfil]; rfl
    simp only [latched, hdf, huf, hfil]
    rw [← hv]
    rfl
  rw [hlatched]
  have hwaves : v.waves = s.waves := by rw [← hv]; rfl
  have hsteps : ∀ n q, v.evaluateLatches.step? n q = s.step? n q := fun n q =>
    (step?_evaluateLatches v n q).trans (step?_congr hwaves n q)
  refine ⟨fun hrel hp hq hm => ?_, fun w st hok hw hst ho hc hone hforced => ?_⟩
  · refine State.settle_nothing hsteps hrel hp ?_ ?_
    · rw [← hv]; exact hq
    · rw [← hv]; exact ⟨fun ⟨hd, hw, hn⟩ => hm.1 ⟨hd, List.map_eq_nil_iff.1 hw, hn⟩, hm.2⟩
  · have hokL : WavesOk v.evaluateLatches := wavesOk_evaluateLatches (by rw [← hv]; exact hok)
    have hlone : Lone v.evaluateLatches w.num st.row := by
      refine ⟨fun m q x hx hh => ?_, fun q x hx hfo => ?_⟩
      · obtain ⟨w', hw', rfl, hm', rfl⟩ := State.step?_mem ((hsteps m q).symm.trans hx)
        exact hone w' hw' x hm' hh
      · obtain ⟨w', hw', hn, hm', rfl⟩ := State.step?_mem ((hsteps _ q).symm.trans hx)
        obtain rfl := List.inj_on_of_nodup_map hok.nums_nodup hw' hw hn
        exact hforced x hm' hfo
    have ho' : v.evaluateLatches.owesTest (w.num, st.row) = false := by
      rw [State.owesTest_eq ((hsteps _ _).trans (hok.step?_of_mem hw hst)), ho]
    have hopen : v.evaluateLatches.relayClosed = false := by rw [← hv]; exact hr
    rw [exec_estimateStep hr hd, State.estimate_filters (s := { s with estimateDue := false }) hrs hf, hv, hsame,
      exec_stepRelease hopen hc, hlone.settle hokL hc ho']
    exact ⟨rfl, fun w' hw' hn st' hst' hrow => hlone.releasedAt hokL hc w' hw' hn st' hst' hrow⟩

end Sys2Proof.Machine

/-! The close of the FORMING wave under a covered sector (R66 to R68): the steps that it builds, the step that enters HOLDING, and the close
of a wave without work. -/

namespace Sys2Proof.Machine

/-! ### The steps of a closed wave (R66, R67) -/

theorem builtState_of_work {s : State} {targets : List (Nat × Int)} {e : PlanEntry} (h : HasWork s targets e) :
    s.builtState targets e.row = .waiting := by
  obtain ⟨hm, n, hn, q, hq, rfl⟩ := h
  have hany : ((s.members e.row).any fun n => targets.any fun p => p.1 == n) = true :=
    List.any_eq_true.2 ⟨q.1, hn, List.any_eq_true.2 ⟨q, hq, by simp⟩⟩
  rw [State.builtState, hm, hany]
  rfl

theorem builtState_of_no_work {s : State} {targets : List (Nat × Int)} {e : PlanEntry} (h : ¬HasWork s targets e) :
    s.builtState targets e.row = .empty := by
  rw [State.builtState]
  refine if_pos ?_
  by_contra hc
  simp only [Bool.or_eq_true, Bool.not_eq_true', not_or, Bool.not_eq_true, Bool.not_eq_false, List.any_eq_true, beq_iff_eq] at hc
  obtain ⟨hm, n, hn, q, hq, e⟩ := hc
  exact h ⟨hm, n, hn, q, hq, e⟩

/-- The step that a close builds from a plan's entry, in a state and with an effective spacing (R57). -/
def PlanEntry.step (e : PlanEntry) (x : StepState) (spacing : Nat) : WaveStep :=
  { row := e.row, state := x, spacing := spacing, gate := e.gate, action := e.action }

section
variable {s : State} {targets : List (Nat × Int)}

theorem buildSteps_work {e : PlanEntry} (h : HasWork s targets e) (since : Option Nat) (rest : List PlanEntry) :
    s.buildSteps targets since (e :: rest) =
      e.step .waiting ((since.map fun d => min 8191 (d + e.spacing)).getD 0) :: s.buildSteps targets (some 0) rest := by
  rw [State.buildSteps.eq_def]
  dsimp only
  rw [builtState_of_work h]
  cases since <;> rfl

theorem buildSteps_no_work {e : PlanEntry} (h : ¬HasWork s targets e) (since : Option Nat) (rest : List PlanEntry) :
    s.buildSteps targets since (e :: rest) = e.step .empty 0 :: s.buildSteps targets (since.map fun d => d + e.spacing) rest := by
  rw [State.buildSteps.eq_def]
  dsimp only
  rw [builtState_of_no_work h]
  cases since <;> rfl

/-- Entries without work build EMPTY steps, and hand their spacings on (R67). -/
theorem buildSteps_no_works {mid : List PlanEntry} (h : ∀ x ∈ mid, ¬HasWork s targets x) (since : Option Nat) (rest : List PlanEntry) :
    s.buildSteps targets since (mid ++ rest) =
      mid.map (fun x => x.step .empty 0) ++ s.buildSteps targets (since.map fun d => d + (mid.map fun x => x.spacing).sum) rest := by
  induction mid generalizing since with
  | nil => cases since <;> rfl
  | cons x mid ih =>
    rw [List.cons_append, buildSteps_no_work (h x List.mem_cons_self), ih fun y hy => h y (List.mem_cons_of_mem _ hy)]
    cases since <;> simp [Nat.add_assoc]

theorem buildSteps_entries (since : Option Nat) (es : List PlanEntry) :
    (s.buildSteps targets since es).map (fun st => (st.row, st.gate, st.action)) = es.map fun e => (e.row, e.gate, e.action) := by
  induction es generalizing since with
  | nil => rfl
  | cons e es ih =>
    by_cases h : HasWork s targets e
    · rw [buildSteps_work h, List.map_cons, ih]; rfl
    · rw [buildSteps_no_work h, List.map_cons, ih]; rfl

/-- What a close builds before the step of an entry with work, and behind it. -/
theorem buildSteps_split {e : PlanEntry} (h : HasWork s targets e) (since : Option Nat) (pre rest : List PlanEntry) :
    ∃ front n, s.buildSteps targets since (pre ++ e :: rest) = front ++ e.step .waiting n :: s.buildSteps targets (some 0) rest := by
  induction pre generalizing since with
  | nil => exact ⟨[], _, buildSteps_work h since rest⟩
  | cons x pre ih =>
    by_cases hx : HasWork s targets x
    · obtain ⟨front, n, e⟩ := ih (some 0)
      exact ⟨_ :: front, n, by rw [List.cons_append, buildSteps_work hx, e]; rfl⟩
    · obtain ⟨front, n, e⟩ := ih (since.map fun d => d + x.spacing)
      exact ⟨_ :: front, n, by rw [List.cons_append, buildSteps_no_work hx, e]; rfl⟩

/-- An entry without work builds an EMPTY step. -/
theorem buildSteps_empty {e : PlanEntry} (h : ¬HasWork s targets e) (since : Option Nat) {es : List PlanEntry} (he : e ∈ es) :
    e.step .empty 0 ∈ s.buildSteps targets since es := by
  induction es generalizing since with
  | nil => cases he
  | cons x es ih =>
    rcases List.mem_cons.1 he with rfl | he
    · rw [buildSteps_no_work h]; exact List.mem_cons_self
    · by_cases hx : HasWork s targets x
      · rw [buildSteps_work hx]; exact List.mem_cons_of_mem _ (ih _ he)
      · rw [buildSteps_no_work hx]; exact List.mem_cons_of_mem _ (ih _ he)

end

/-- The first step with work. -/
def firstWork (steps : List WaveStep) : Option WaveStep := steps.find? fun st => st.state != .empty

/-- The step of the first entry with work is the first with work, with no spacing (R67). -/
theorem firstWork_of_split {s : State} {targets : List (Nat × Int)} {pre post : List PlanEntry} {e : PlanEntry}
    (hpre : ∀ x ∈ pre, ¬HasWork s targets x) (he : HasWork s targets e) :
    firstWork (s.buildSteps targets none (pre ++ e :: post)) = some (e.step .waiting 0) := by
  rw [buildSteps_no_works hpre, firstWork, List.find?_append, List.find?_eq_none.2, Option.none_or]
  · rw [Option.map_none, buildSteps_work he]; rfl
  · intro x hx
    obtain ⟨y, -, rfl⟩ := List.mem_map.1 hx
    simp [PlanEntry.step]

theorem firstWork_none {s : State} {targets : List (Nat × Int)} {es : List PlanEntry} (h : ∀ x ∈ es, ¬HasWork s targets x) :
    firstWork (s.buildSteps targets none es) = none ∧ (s.buildSteps targets none es).all fun st => st.state.terminal := by
  have e := buildSteps_no_works h none []
  rw [List.append_nil] at e
  rw [e]
  refine ⟨List.find?_eq_none.2 fun x hx => ?_, List.all_eq_true.2 fun x hx => ?_⟩
  all_goals
    rcases List.mem_append.1 hx with hx | hx
    · obtain ⟨y, -, rfl⟩ := List.mem_map.1 hx
      simp [PlanEntry.step, StepState.terminal]
    · cases hx

/-- An entry list with work splits at its first entry with work. -/
theorem exists_first_work {s : State} {targets : List (Nat × Int)} {es : List PlanEntry} (h : ∃ e ∈ es, HasWork s targets e) :
    ∃ pre e post, es = pre ++ e :: post ∧ (∀ x ∈ pre, ¬HasWork s targets x) ∧ HasWork s targets e := by
  induction es with
  | nil => obtain ⟨e, he, -⟩ := h; cases he
  | cons x es ih =>
    by_cases hx : HasWork s targets x
    · exact ⟨[], x, es, rfl, by simp, hx⟩
    · obtain ⟨e, he, hw⟩ := h
      have he : e ∈ es := (List.mem_cons.1 he).resolve_left fun c => hx (c ▸ hw)
      obtain ⟨pre, f, post, rfl, hpre, hf⟩ := ih ⟨e, he, hw⟩
      exact ⟨x :: pre, f, post, rfl, List.forall_mem_cons.2 ⟨hx, hpre⟩, hf⟩

/-! ### The close, whole -/

/-- A step enters HOLDING where it is found (R76, R77). -/
theorem State.enterHolding_eq {s : State} {w : Wave} {st : WaveStep} (hw : s.wave? w.num = some w) (hst : w.step? st.row = some st) :
    s.enterHolding w.num st.row = (s.updStep w.num st.row WaveStep.start).place (s.startRequest w st) := by
  simp only [State.enterHolding, hw, hst]
  rfl

/-- Completion changes nothing where no wave is finished (R71). -/
theorem State.completeWaves_none {s : State} (h : ∀ w ∈ s.waves, w.finished = false) : s.completeWaves = s := by
  rw [State.completeWaves, List.filter_eq_nil_iff.2 fun w hw => by simp [h w hw]]
  rfl

/-- A record without a finished step list is not finished. -/
theorem NoneFinished.not_finished {s : State} (h : NoneFinished s) {w : Wave} (hw : w ∈ s.waves) : w.finished = false := by
  refine Bool.eq_false_iff.2 fun hf => ?_
  simp only [Wave.finished, Bool.and_eq_true, List.all_eq_true] at hf
  obtain ⟨st, hst, ht⟩ := h w hw hf.1
  rw [hf.2 st hst] at ht
  cases ht

/-- A notice offered to the same queue with the same header (R169, R184). -/
theorem queueU_notify_of_header {s u : State} (n : Notice)
    (h : (u.params, u.supervisor, u.station, u.nodeAddr, u.queueU) = (s.params, s.supervisor, s.station, s.nodeAddr, s.queueU)) :
    (u.notify n).queueU = (noticed n s).queueU := by
  simp only [Prod.mk.injEq] at h
  obtain ⟨h1, h2, h3, h4, h5⟩ := h
  rw [← State.notify_eq_noticed]
  simp only [State.notify, State.sendU, State.noticeFrame, h1, h2, h3, h4, h5]

section
variable (s : State) (w : Wave)

theorem completeWave_waves : (s.completeWave w).waves = s.waves.filter fun x => x.num != w.num := rfl
theorem completeWave_divider : (s.completeWave w).divider = s.divider := rfl
theorem completeWave_quiet : (s.completeWave w).quiet = s.quiet := rfl
theorem completeWave_counters : (s.completeWave w).counters = { s.counters with done := s.counters.done + 1 } := rfl

end

/-- The WAVE_CLOSED notice of the close (R68). -/
abbrev State.closedNotice (s : State) (w : Wave) (k : Nat) (p : Plan) : Notice :=
  .waveClosed w.num w.set k ((s.closedWave w k p).steps.countP fun st => st.state != .empty) (s.closedWave w k p).outside

/-- The record once its first step with work has entered HOLDING (R66). -/
def State.startedWave (s : State) (w : Wave) (k : Nat) (p : Plan) (st : WaveStep) : Wave :=
  (s.closedWave w k p).updStep st.row WaveStep.start

/-- A unit whose youngest wave is FORMING under a covered sector, the others having work left. -/
structure Closing (s : State) (older : List Wave) (w : Wave) (k : Nat) (p : Plan) : Prop where
  ok : WavesOk s
  working : NoneFinished s
  waves : s.waves = older ++ [w]
  forming : w.running = false
  sector : s.sector = some k
  plan : s.plan? k = some p

namespace Closing

variable {s : State} {older : List Wave} {w : Wave} {k : Nat} {p : Plan} (h : Closing s older w k p)
include h

theorem forming? : s.forming? = some w := by
  have hlast := h.ok.2.2.2.2.2.1
  rw [h.waves, List.dropLast_concat] at hlast
  rw [State.forming?, h.waves, List.find?_append, List.find?_eq_none.2 fun x hx => by simp [hlast x hx], Option.none_or]
  simp [h.forming]

theorem currentPlan : s.currentPlan = some (k, p) := by simp [State.currentPlan, h.sector, h.plan]

theorem closed_waves : (s.closedState w k p).waves = older ++ [s.closedWave w k p] := State.closedState_waves h.ok h.waves k p

theorem built : BuiltSteps (s.closedWave w k p).steps := State.closedWave_built h.ok h.currentPlan

theorem closed_ok : WavesOk (s.closedState w k p) := by
  obtain ⟨hplans, hcount, hlen, hnd, hnum, hrun, hsteps⟩ := h.ok
  obtain ⟨b1, b2, -⟩ := h.built
  have hw := h.closed_waves
  rw [h.waves] at hlen hnd hnum hrun hsteps
  refine ⟨hplans, hcount, ?_, ?_, ?_, ?_, ?_⟩ <;> rw [hw]
  · simpa using hlen
  · simpa [State.closedWave] using hnd
  · simpa [State.closedWave, or_imp, forall_and] using hnum
  · simpa using hrun
  · intro x hx
    rcases List.mem_append.1 hx with hx | hx
    · exact hsteps x (List.mem_append_left _ hx)
    · cases List.mem_singleton.1 hx
      exact ⟨b1, b2, fun c => by cases c⟩

theorem closed_mem : s.closedWave w k p ∈ (s.closedState w k p).waves := by rw [h.closed_waves]; simp

theorem older_ne {x : Wave} (hx : x ∈ older) : x.num ≠ w.num := fun e => by
  have hnd := h.ok.nums_nodup
  rw [h.waves, List.map_append, List.nodup_append] at hnd
  exact hnd.2.2 x.num (List.mem_map_of_mem hx) w.num (by simp) e

theorem older_not_finished {x : Wave} (hx : x ∈ older) : x.finished = false := h.working.not_finished (by rw [h.waves]; simp [hx])

theorem start_waves (st : WaveStep) :
    ((s.closedState w k p).updStep w.num st.row WaveStep.start).waves = older ++ [s.startedWave w k p st] := by
  change (s.closedState w k p).waves.map _ = _
  rw [h.closed_waves, List.map_append]
  congr 1
  · exact (List.map_congr_left fun x hx => if_neg (h.older_ne hx)).trans (List.map_id' _)
  · simp [State.startedWave, State.closedWave]

/-- The close of a wave with work (R66 to R68). -/
theorem closeForming_work {st : WaveStep} (hst : firstWork (s.closedWave w k p).steps = some st) :
    s.closeForming = ((((s.closedState w k p).updStep w.num st.row WaveStep.start).place
      ⟨.hold w.num st.row, 102400 * st.spacing, p.k * max s.uf s.params.uCalm⟩).tally
        fun c => { c with closed := c.closed + 1 }).notify (s.closedNotice w k p) := by
  have hm : st ∈ (s.closedWave w k p).steps := List.mem_of_find?_eq_some hst
  have hin : (s.closedState w k p).enterHolding w.num st.row =
      ((s.closedState w k p).updStep w.num st.row WaveStep.start).place
        ⟨.hold w.num st.row, 102400 * st.spacing, p.k * max s.uf s.params.uCalm⟩ := by
    have e := State.enterHolding_eq (h.closed_ok.wave?_of_mem h.closed_mem) (find?_key_of_mem h.built.1 hm)
    have hplan : (s.closedState w k p).planOf (s.closedWave w k p) = some p := h.plan
    rw [State.startRequest, hplan] at e
    exact e
  unfold State.closeForming
  rw [h.forming?, h.currentPlan]
  dsimp only
  rw [firstWork] at hst
  rw [hst]
  change State.completeWaves (State.notify (State.tally ((s.closedState w k p).enterHolding w.num st.row) _) _) = _
  rw [hin]
  refine State.completeWaves_none fun x hx => ?_
  have hx : x ∈ ((s.closedState w k p).updStep w.num st.row WaveStep.start).waves := hx
  rw [h.start_waves st] at hx
  rcases List.mem_append.1 hx with hx | hx
  · exact h.older_not_finished hx
  · cases List.mem_singleton.1 hx
    refine Bool.eq_false_iff.2 fun hf => ?_
    simp only [Wave.finished, Bool.and_eq_true, List.all_eq_true] at hf
    have := hf.2 st.start (List.mem_map.2 ⟨st, hm, by simp⟩)
    cases this

/-- What the close of a wave with work leaves (R61, R66, R68). -/
theorem closeForming_work_fields {st : WaveStep} (hst : firstWork (s.closedWave w k p).steps = some st) :
    s.closeForming.waves = older ++ [s.startedWave w k p st] ∧
      s.closeForming.divider = s.divider.place ⟨.hold w.num st.row, 102400 * st.spacing, p.k * max s.uf s.params.uCalm⟩ ∧
      s.closeForming.quiet = none ∧ s.closeForming.counters = { s.counters with closed := s.counters.closed + 1 } ∧
      s.closeForming.queueU = (noticed (s.closedNotice w k p) s).queueU ∧
      s.closeForming.turbines = s.turbines ∧ s.closeForming.high = s.high ∧ s.closeForming.low = s.low ∧
      s.closeForming.neutral = s.neutral ∧ s.closeForming.mode = s.mode := by
  rw [h.closeForming_work hst]
  exact ⟨h.start_waves st, rfl, rfl, rfl, queueU_notify_of_header _ (by simp [State.closedState]),
    by simp [State.closedState], by simp [State.closedState], by simp [State.closedState], by simp [State.closedState],
    by simp [State.closedState]⟩

/-- The close of a wave without work, which is done at once (R66 to R68, R71). -/
theorem closeForming_no_work (hn : firstWork (s.closedWave w k p).steps = none)
    (ht : (s.closedWave w k p).steps.all fun st => st.state.terminal) :
    s.closeForming = (((s.closedState w k p).tally fun c => { c with closed := c.closed + 1 }).notify
      (s.closedNotice w k p)).completeWave (s.closedWave w k p) := by
  unfold State.closeForming
  rw [h.forming?, h.currentPlan]
  dsimp only
  rw [firstWork] at hn
  rw [hn]
  change State.completeWaves (State.notify (State.tally (s.closedState w k p) _) _) = _
  have hfin : (s.closedWave w k p).finished = true := by simp only [Wave.finished, ht]; rfl
  have hwaves : ∀ f n, ((((s.closedState w k p).tally f).notify n).waves.filter Wave.finished) = [s.closedWave w k p] := fun f n => by
    change List.filter _ (s.closedState w k p).waves = _
    rw [h.closed_waves, List.filter_append, List.filter_eq_nil_iff.2 fun x hx => by simp [h.older_not_finished hx]]
    simp [hfin]
  rw [State.completeWaves, hwaves]
  rfl

/-- What the close of a wave without work leaves (R61, R68, R71). -/
theorem closeForming_no_work_fields (hn : firstWork (s.closedWave w k p).steps = none)
    (ht : (s.closedWave w k p).steps.all fun st => st.state.terminal) :
    s.closeForming.waves = older ∧ s.closeForming.quiet = none ∧ s.closeForming.divider = s.divider ∧
      s.closeForming.counters = { s.counters with closed := s.counters.closed + 1, done := s.counters.done + 1 } ∧
      s.closeForming.turbines = s.turbines ∧ s.closeForming.high = s.high ∧ s.closeForming.low = s.low ∧
      s.closeForming.neutral = s.neutral ∧ s.closeForming.mode = s.mode := by
  rw [h.closeForming_no_work hn ht]
  have hside := WavesOnly.completeWave (((s.closedState w k p).tally fun c => { c with closed := c.closed + 1 }).notify
      (s.closedNotice w k p)) (s.closedWave w k p)
  refine ⟨?_, ?_, ?_, ?_, hside.turbines, hside.high, hside.low, hside.neutral, hside.mode⟩
  · rw [completeWave_waves, State.notify_waves, State.tally_waves, h.closed_waves, List.filter_append,
      List.filter_eq_self.2 fun x hx => by simpa [State.closedWave] using h.older_ne hx]
    simp
  · rw [completeWave_quiet, State.notify_quiet, State.tally_quiet]; rfl
  · rw [completeWave_divider, State.notify_divider, State.tally_divider]; rfl
  · rw [completeWave_counters, State.notify_counters]; rfl

end Closing

theorem inOrderOf_iff {s : State} {p : Plan} {node : Nat} :
    s.inOrderOf p node = true ↔ ∃ x, s.turbine? node = some x ∧ ∃ e ∈ p.entries, e.row = x.config.row := by
  unfold State.inOrderOf
  cases s.turbine? node with
  | none => simp
  | some x => simp

namespace Closing

variable {s : State} {older : List Wave} {w : Wave} {k : Nat} {p : Plan}

/-- A built step other than the one that starts stands (R66). -/
theorem started_mem {st x : WaveStep} (hx : x ∈ (s.closedWave w k p).steps) (hne : x.row ≠ st.row) : x ∈ (s.startedWave w k p st).steps :=
  List.mem_map.2 ⟨x, hx, if_neg hne⟩

theorem started_entries (st : WaveStep) :
    ((s.startedWave w k p st).steps.map fun st => (st.row, st.gate, st.action)) = p.entries.map fun e => (e.row, e.gate, e.action) := by
  rw [← buildSteps_entries (s := s) (targets := w.targets) none p.entries]
  change ((s.closedWave w k p).steps.map _).map _ = _
  rw [List.map_map]
  refine List.map_congr_left fun x _ => ?_
  simp only [Function.comp]
  split <;> rfl

theorem started_outside (st : WaveStep) :
    (s.startedWave w k p st).outside + (s.startedWave w k p st).targets.length = w.targets.length := by
  change (w.targets.countP fun q => !s.inOrderOf p q.1) + (w.targets.filter fun q => s.inOrderOf p q.1).length = _
  rw [← List.countP_eq_length_filter, Nat.add_comm, w.targets.length_eq_countP_add_countP fun q => s.inOrderOf p q.1]
  simp

/-- The step that starts is one with work, so that the number of these stands. -/
theorem started_countP (h : Closing s older w k p) {st : WaveStep} (hst : st ∈ (s.closedWave w k p).steps) (hw : st.state ≠ .empty) :
    (s.startedWave w k p st).steps.countP (fun x => x.state != .empty) = (s.closedWave w k p).steps.countP fun x => x.state != .empty := by
  change ((s.closedWave w k p).steps.map _).countP _ = _
  rw [List.countP_map]
  refine List.countP_congr fun x hx => ?_
  simp only [Function.comp]
  split
  · rename_i e
    obtain rfl := List.inj_on_of_nodup_map h.built.1 hx hst e
    simp [WaveStep.start, hw]
  · rfl

/-- The step of a later entry with work does not start (R67). -/
theorem later_row_ne (h : Closing s older w k p) {pre mid post : List PlanEntry} {e e' : PlanEntry}
    (hes : p.entries = pre ++ e :: (mid ++ e' :: post)) (he : HasWork s w.targets e) {st : WaveStep}
    (hst : firstWork (s.closedWave w k p).steps = some st) : e'.row ≠ st.row := by
  have hnd : (p.entries.map fun x => x.row).Nodup := (h.ok.currentPlan_ok h.currentPlan).2.2.2.2
  obtain ⟨front, n, hsplit⟩ := buildSteps_split he none pre (mid ++ e' :: post)
  have hst : firstWork (s.buildSteps w.targets none p.entries) = some st := hst
  have hrows := (s.buildSteps_built w.targets none p.entries).1
  have hrest := (s.buildSteps_built w.targets (some 0) (mid ++ e' :: post)).1
  rw [hes] at hst hrows hnd
  rw [hsplit] at hst hrows
  rw [← hrows, List.map_append, List.map_cons, hrest, List.append_cons, List.nodup_append] at hnd
  have hmem : st ∈ front ++ [e.step .waiting n] := by
    rw [firstWork, List.append_cons, List.find?_append] at hst
    have hsome : ((front ++ [e.step .waiting n]).find? fun st => st.state != .empty).isSome := by
      rw [List.find?_isSome]
      exact ⟨e.step .waiting n, by simp, rfl⟩
    obtain ⟨x, hx⟩ := Option.isSome_iff_exists.1 hsome
    rw [hx] at hst
    cases hst
    exact List.mem_of_find?_eq_some hx
  refine (hnd.2.2 st.row ?_ e'.row (by simp)).symm
  simpa using List.mem_map_of_mem (f := fun x => x.row) hmem

end Closing

/-- The state in which the quiet timer's expiry closes the wave (R63). -/
def State.expiring (s : State) : State := { s with quietDue := false }

/-- Settles O25: a wave with work closes with its first step started, and one without is done at its close. -/
theorem quietExpiryClosesCovered : Obligations.QuietExpiryClosesCovered := by
  intro s older w k p hr hq hok hnf hw hrun hk hp
  have h : Closing s.expiring older w k p := ⟨hok, hnf, hw, hrun, hk, hp⟩
  have hx : exec .quietTimerExpiry s = .next s.expiring.closeForming := by
    change Host.Outcome.next (s.whenRunning s.takeQuiet) = _
    rw [State.whenRunning_open hr, State.takeQuiet, if_pos hq]
    rfl
  rw [hx]
  refine ⟨fun he => ?_, fun hn => ?_⟩
  · have first : ∀ pre e post, p.entries = pre ++ e :: post → (∀ x ∈ pre, ¬HasWork s w.targets x) → HasWork s w.targets e →
        firstWork (s.expiring.closedWave w k p).steps = some (e.step .waiting 0) := fun pre e post hes hpre hwe => by
      change firstWork (s.expiring.buildSteps w.targets none p.entries) = _
      rw [hes]
      exact firstWork_of_split hpre hwe
    obtain ⟨pre, e, post, hes, hpre, hwe⟩ := exists_first_work he
    have hst := first pre e post hes hpre hwe
    have hmem := List.mem_of_find?_eq_some hst
    obtain ⟨f1, f2, f3, f4, f5, f6⟩ := h.closeForming_work_fields hst
    refine ⟨_, s.expiring.startedWave w k p (e.step .waiting 0), rfl, f1,
      rfl, rfl, rfl, rfl, rfl, rfl, rfl, rfl, fun q => ?_, Closing.started_outside _, Closing.started_entries _, fun x hx hnw => ?_,
      fun pre' e' post' hes' hpre' hwe' => ?_, fun pre' e₁ mid e₂ post' hes' hw₁ hmid hw₂ => ?_, f3, f4, ?_, f6⟩
    · refine List.mem_filter.trans (and_congr_right fun _ => ?_)
      exact inOrderOf_iff (s := s.expiring)
    · have hbuilt := buildSteps_empty (s := s.expiring) hnw none hx
      refine ⟨x.step .empty 0, Closing.started_mem hbuilt fun c => ?_, rfl, rfl⟩
      cases congrArg WaveStep.state (List.inj_on_of_nodup_map h.built.1 hbuilt hmem c)
    · have heq : e'.step .waiting 0 = e.step .waiting 0 := Option.some.inj ((first pre' e' post' hes' hpre' hwe').symm.trans hst)
      have hrow : e'.row = e.row := congrArg WaveStep.row heq
      refine ⟨⟨_, List.mem_map.2 ⟨_, hmem, if_pos rfl⟩, hrow.symm, rfl, rfl, rfl, rfl, rfl⟩, ?_⟩
      rw [f2, hrow]
      rfl
    · have hne := h.later_row_ne hes' hw₁ hst
      obtain ⟨front, n, hsplit⟩ := buildSteps_split (s := s.expiring) hw₁ none pre' (mid ++ e₂ :: post')
      rw [← hes', buildSteps_no_works (s := s.expiring) hmid, buildSteps_work (s := s.expiring) hw₂] at hsplit
      refine ⟨e₂.step .waiting (min 8191 ((mid ++ [e₂]).map fun x => x.spacing).sum), Closing.started_mem ?_ hne, rfl, rfl, rfl⟩
      change _ ∈ s.expiring.buildSteps w.targets none p.entries
      rw [hsplit]
      simp
    · rw [f5, h.started_countP hmem (by simp [PlanEntry.step]), ← State.notify_eq_noticed]
      exact queueU_notify_of_header _ rfl
  · obtain ⟨h1, h2⟩ := firstWork_none (s := s.expiring) hn
    obtain ⟨f1, f2, f3, f4, f5⟩ := h.closeForming_no_work_fields h1 h2
    exact ⟨_, rfl, f1, f2, f3, f4, f5⟩

end Sys2Proof.Machine

/-! The release of a step, exactly: what it makes of its members, its record, its successor and the divider (R88 to R90, R96). -/

namespace Sys2Proof.Machine

/-! ### The members of a row at a release (R88) -/

/-- A released step takes in counts of its members. -/
def WaveStep.counting (needed settled faulted : Nat) (x : WaveStep) : WaveStep :=
  { x with needed := x.needed + needed, settled := x.settled + settled, faulted := x.faulted + faulted }

/-- The turbines among some nodes are queued for a step, with their targets of its wave. -/
def queueAmong (ts : List (Nat × Int)) (n r : Nat) (q : List Nat) (x : Turbine) : Turbine :=
  if x.node ∈ q then { x with live := { x.live with move := .queued, owner := some (.low n r), target := targetIn ts x.node } } else x

/-- A state whose released step has taken in some members: those it queues, and the counts. -/
def State.takeIn (s : State) (ts : List (Nat × Int)) (n r : Nat) (q : List Nat) (needed settled faulted : Nat) : State :=
  { s.updStep n r (WaveStep.counting needed settled faulted) with
    turbines := s.turbines.map (queueAmong ts n r q)
    low := s.low ++ q }

/-- The release takes the turbine on and queues it. -/
def State.queuesAt (s : State) (ts : List (Nat × Int)) (n : Nat) : Bool :=
  match targetIn ts n, s.turbine? n with
  | some g, some x => !x.live.fault && x.live.needsMotion s.params.tolerance g
  | _, _ => false

/-- The release finds the turbine at its target. -/
def State.settlesAt (s : State) (ts : List (Nat × Int)) (n : Nat) : Bool :=
  match targetIn ts n, s.turbine? n with
  | some g, some x => !x.live.fault && !x.live.needsMotion s.params.tolerance g
  | _, _ => false

/-- The release finds the turbine with FAULT set. -/
def State.faultsAt (s : State) (ts : List (Nat × Int)) (n : Nat) : Bool :=
  match targetIn ts n, s.turbine? n with
  | some _, some x => x.live.fault
  | _, _ => false

theorem queuedAtRelease_eq (s : State) (ts : List (Nat × Int)) (r : Nat) :
    queuedAtRelease s ts r = (s.members r).filter (s.queuesAt ts) := by
  refine List.filter_congr fun n _ => ?_
  unfold State.queuesAt State.turbine?
  cases targetIn ts n with
  | none => rfl
  | some g => cases s.turbines.find? fun x => x.node == n <;> rfl

theorem settledAtRelease_eq (s : State) (ts : List (Nat × Int)) (r : Nat) :
    settledAtRelease s ts r = (s.members r).filter (s.settlesAt ts) := by
  refine List.filter_congr fun n _ => ?_
  unfold State.settlesAt State.turbine?
  cases targetIn ts n with
  | none => rfl
  | some g =>
    cases s.turbines.find? fun x => x.node == n with
    | none => rfl
    | some x =>
      unfold Live.needsMotion
      cases ha : x.live.applied <;> simp [ha, ← decide_not]

theorem faultedAtRelease_eq (s : State) (ts : List (Nat × Int)) (r : Nat) :
    faultedAtRelease s ts r = (s.members r).filter (s.faultsAt ts) := by
  refine List.filter_congr fun n _ => ?_
  unfold State.faultsAt State.turbine?
  cases targetIn ts n with
  | none => rfl
  | some g => cases s.turbines.find? fun x => x.node == n <;> rfl

theorem queueAmong_node (ts : List (Nat × Int)) (n r : Nat) (q : List Nat) (x : Turbine) : (queueAmong ts n r q x).node = x.node := by
  unfold queueAmong
  split <;> rfl

theorem queueAmong_nil (ts : List (Nat × Int)) (n r : Nat) : queueAmong ts n r [] = id := rfl

theorem queueAmong_queueAmong (ts : List (Nat × Int)) (n r : Nat) (p q : List Nat) (x : Turbine) :
    queueAmong ts n r q (queueAmong ts n r p x) = queueAmong ts n r (p ++ q) x := by
  unfold queueAmong
  by_cases hp : x.node ∈ p <;> by_cases hq : x.node ∈ q <;> simp [hp, hq]

theorem Wave.updStep_updStep (w : Wave) (r : Nat) {g f : WaveStep → WaveStep} (hf : ∀ x, (f x).row = x.row) :
    (w.updStep r f).updStep r g = w.updStep r (g ∘ f) := by
  simp only [Wave.updStep, List.map_map]
  congr 1
  refine List.map_congr_left fun x _ => ?_
  by_cases hx : x.row = r <;> simp [hx, hf]

theorem State.updWave_updWave (s : State) (n : Nat) {g f : Wave → Wave} (hf : ∀ w, (f w).num = w.num) :
    (s.updWave n f).updWave n g = s.updWave n (g ∘ f) := by
  simp only [State.updWave, List.map_map]
  congr 1
  refine List.map_congr_left fun w _ => ?_
  by_cases hw : w.num = n <;> simp [hw, hf]

theorem State.updStep_updStep (s : State) (n r : Nat) {g f : WaveStep → WaveStep} (hf : ∀ x, (f x).row = x.row) :
    (s.updStep n r f).updStep n r g = s.updStep n r (g ∘ f) := by
  refine (s.updWave_updWave n (f := fun w => w.updStep r f) fun _ => rfl).trans ?_
  exact congrArg (s.updWave n) (funext fun w => w.updStep_updStep r hf)

theorem WaveStep.counting_counting (a b c a' b' c' : Nat) :
    WaveStep.counting a' b' c' ∘ WaveStep.counting a b c = WaveStep.counting (a + a') (b + b') (c + c') := by
  funext x
  simp [WaveStep.counting, Nat.add_assoc]

theorem State.takeIn_takeIn (s : State) (ts : List (Nat × Int)) (n r : Nat) (p q : List Nat) (a b c a' b' c' : Nat) :
    (s.takeIn ts n r p a b c).takeIn ts n r q a' b' c' = s.takeIn ts n r (p ++ q) (a + a') (b + b') (c + c') := by
  have hw := congrArg State.waves (s.updStep_updStep n r (g := WaveStep.counting a' b' c') (f := WaveStep.counting a b c) fun _ => rfl)
  rw [WaveStep.counting_counting] at hw
  have ht : (s.turbines.map (queueAmong ts n r p)).map (queueAmong ts n r q) = s.turbines.map (queueAmong ts n r (p ++ q)) := by
    rw [List.map_map]
    exact List.map_congr_left fun x _ => queueAmong_queueAmong ts n r p q x
  change { s with
    waves := ((s.updStep n r (WaveStep.counting a b c)).updStep n r (WaveStep.counting a' b' c')).waves
    turbines := (s.turbines.map (queueAmong ts n r p)).map (queueAmong ts n r q)
    low := s.low ++ p ++ q } = _
  rw [hw, ht, List.append_assoc]
  rfl

theorem Wave.updStep_id (w : Wave) (r : Nat) {g : WaveStep → WaveStep} (hg : ∀ x, g x = x) : w.updStep r g = w := by
  simp only [Wave.updStep, hg, ite_self, List.map_id']

theorem State.updStep_id (s : State) (n r : Nat) {g : WaveStep → WaveStep} (hg : ∀ x, g x = x) : s.updStep n r g = s := by
  simp only [State.updStep, State.updWave, Wave.updStep_id _ r hg, ite_self, List.map_id']

theorem State.takeIn_queuing (s : State) (ts : List (Nat × Int)) (n r node : Nat) {g : Int} (hg : targetIn ts node = some g) :
    (s.updStep n r fun x => { x with needed := x.needed + 1 }).queueLow n r node g = s.takeIn ts n r [node] 1 0 0 := by
  have ht : (s.turbines.map fun x => if x.node = node then { x with live := { x.live with
      move := .queued, owner := some (.low n r), target := some g } } else x) = s.turbines.map (queueAmong ts n r [node]) :=
    List.map_congr_left fun x _ => by
      unfold queueAmong
      by_cases hx : x.node = node <;> simp [hx, hg]
  unfold State.queueLow State.updLive
  rw [State.updStep_turbines, ht]
  rfl

theorem State.takeIn_nil (s : State) (ts : List (Nat × Int)) (n r a b c : Nat) :
    s.takeIn ts n r [] a b c = s.updStep n r (WaveStep.counting a b c) := by
  unfold State.takeIn
  rw [queueAmong_nil, List.map_id, List.append_nil]
  rfl

theorem State.takeIn_nothing (s : State) (ts : List (Nat × Int)) (n r : Nat) : s.takeIn ts n r [] 0 0 0 = s :=
  (s.takeIn_nil ts n r 0 0 0).trans (s.updStep_id n r fun _ => rfl)

theorem State.takeIn_faulting (s : State) (ts : List (Nat × Int)) (n r : Nat) :
    (s.updStep n r fun x => { x with needed := x.needed + 1, faulted := x.faulted + 1 }) = s.takeIn ts n r [] 1 0 1 :=
  (s.takeIn_nil ts n r 1 0 1).symm

theorem State.takeIn_settling (s : State) (ts : List (Nat × Int)) (n r : Nat) :
    (s.updStep n r fun x => { x with needed := x.needed + 1, settled := x.settled + 1 }) = s.takeIn ts n r [] 1 1 0 :=
  (s.takeIn_nil ts n r 1 1 0).symm

/-- The state `u` whose released step has taken in some members, handled as the state `s` shows their turbines (R88). -/
def State.takeInAll (s u : State) (ts : List (Nat × Int)) (n r : Nat) (l : List Nat) : State :=
  u.takeIn ts n r (l.filter (s.queuesAt ts)) (l.countP fun m => (targetIn ts m).isSome) (l.filter (s.settlesAt ts)).length
    (l.filter (s.faultsAt ts)).length

/-- One member of the row is taken on, or left (R88). -/
theorem State.releaseMember_eq {s : State} (ts : List (Nat × Int)) (n r node : Nat) (hx : s.turbine? node ≠ none) :
    State.releaseMember ts n r s node = s.takeInAll s ts n r [node] := by
  obtain ⟨x, hx⟩ := Option.ne_none_iff_exists'.1 hx
  unfold State.releaseMember State.takeInAll
  cases hf : ts.find? fun p => p.1 == node with
  | none =>
    have hg : targetIn ts node = none := by rw [targetIn, hf]; rfl
    have h1 : s.queuesAt ts node = false := by rw [State.queuesAt, hg]
    have h2 : s.settlesAt ts node = false := by rw [State.settlesAt, hg]
    have h3 : s.faultsAt ts node = false := by rw [State.faultsAt, hg]
    simp [h1, h2, h3, hg, State.takeIn_nothing]
  | some p =>
    have hg : targetIn ts node = some p.2 := by rw [targetIn, hf]; rfl
    have h1 : s.queuesAt ts node = (!x.live.fault && x.live.needsMotion s.params.tolerance p.2) := by rw [State.queuesAt, hg, hx]
    have h2 : s.settlesAt ts node = (!x.live.fault && !x.live.needsMotion s.params.tolerance p.2) := by rw [State.settlesAt, hg, hx]
    have h3 : s.faultsAt ts node = x.live.fault := by rw [State.faultsAt, hg, hx]
    simp only [hx]
    cases hfault : x.live.fault with
    | true => simpa [h1, h2, h3, hfault, hg] using s.takeIn_faulting ts n r
    | false =>
      cases hm : x.live.needsMotion s.params.tolerance p.2 with
      | true => simpa [h1, h2, h3, hfault, hm, hg] using s.takeIn_queuing ts n r node hg
      | false => simpa [h1, h2, h3, hfault, hm, hg] using s.takeIn_settling ts n r

theorem State.takeIn_turbine? {s : State} (ts : List (Nat × Int)) (n r : Nat) {q : List Nat} (a b c : Nat) {m : Nat} (hm : m ∉ q) :
    (s.takeIn ts n r q a b c).turbine? m = s.turbine? m := by
  have e : (s.takeIn ts n r q a b c).turbine? m = (s.turbine? m).map (queueAmong ts n r q) :=
    find?_map_key (fun x : Turbine => x.node) _ (queueAmong_node ts n r q) m s.turbines
  rw [e]
  cases hx : s.turbine? m with
  | none => rfl
  | some x =>
    have hn : x.node = m := by simpa using List.find?_some hx
    simp [queueAmong, hn, hm]

/-- What a release makes of a member depends on its turbine's record alone. -/
theorem State.takeInAll_congr {s t u : State} (ts : List (Nat × Int)) (n r : Nat) {l : List Nat} (hp : t.params = s.params)
    (ht : ∀ m ∈ l, t.turbine? m = s.turbine? m) : t.takeInAll u ts n r l = s.takeInAll u ts n r l := by
  have h1 : l.filter (t.queuesAt ts) = l.filter (s.queuesAt ts) :=
    List.filter_congr fun m hm => by simp only [State.queuesAt, ht m hm, hp]
  have h2 : l.filter (t.settlesAt ts) = l.filter (s.settlesAt ts) :=
    List.filter_congr fun m hm => by simp only [State.settlesAt, ht m hm, hp]
  have h3 : l.filter (t.faultsAt ts) = l.filter (s.faultsAt ts) :=
    List.filter_congr fun m hm => by simp only [State.faultsAt, ht m hm]
  simp only [State.takeInAll, h1, h2, h3]

/-- The members of a row are taken on, or left (R88). -/
theorem State.releaseMembers_eq {s : State} (ts : List (Nat × Int)) (n r : Nat) {l : List Nat} (hl : l.Nodup)
    (hx : ∀ m ∈ l, s.turbine? m ≠ none) : l.foldl (State.releaseMember ts n r) s = s.takeInAll s ts n r l := by
  induction l generalizing s with
  | nil => exact (s.takeIn_nothing ts n r).symm
  | cons a l ih =>
    obtain ⟨ha, hnd⟩ := List.nodup_cons.1 hl
    have h1 := State.releaseMember_eq ts n r a (hx a List.mem_cons_self)
    have hsame : ∀ m ∈ l, (s.takeInAll s ts n r [a]).turbine? m = s.turbine? m := fun m hm =>
      State.takeIn_turbine? ts n r _ _ _ fun hc => ha (by
        rw [← List.mem_singleton.1 (List.mem_of_mem_filter hc)]; exact hm)
    have htail := ih (s := s.takeInAll s ts n r [a]) hnd fun m hm => by rw [hsame m hm]; exact hx m (List.mem_cons_of_mem _ hm)
    rw [List.foldl_cons, h1, htail, State.takeInAll_congr (s := s) (t := s.takeInAll s ts n r [a]) ts n r rfl hsame]
    simp only [State.takeInAll, State.takeIn_takeIn]
    rw [← List.filter_append, ← List.countP_append, ← List.length_append, ← List.length_append, ← List.filter_append,
      ← List.filter_append]
    rfl

/-! ### The end of a step and the successor it starts (R81, R96) -/

/-- A change of the step at a row is the change of the one step that stands there. -/
theorem Wave.updStep_eq {w : Wave} (hn : (w.steps.map fun x => x.row).Nodup) {r : Nat} {st : WaveStep} (hst : w.step? r = some st)
    (g : WaveStep → WaveStep) : w.updStep r g = { w with steps := w.steps.map fun o => if o.row = r then g st else o } := by
  obtain ⟨hm, hr⟩ := Wave.step?_mem hst
  refine congrArg (fun l => { w with steps := l }) (List.map_congr_left fun o ho => ?_)
  by_cases h : o.row = r
  · rw [if_pos h, if_pos h, List.inj_on_of_nodup_map hn ho hm (h.trans hr.symm)]
  · rw [if_neg h, if_neg h]

/-- A change of a step that stays EMPTY, or stays not EMPTY, leaves its successor (R43). -/
theorem Wave.successor_updStep {w : Wave} (hn : (w.steps.map fun x => x.row).Nodup) {r : Nat} {g : WaveStep → WaveStep}
    (hg : ∀ x, (g x).row = x.row) (he : ∀ st, w.step? r = some st → ((g st).state = .empty ↔ st.state = .empty)) :
    (w.updStep r g).successor r = w.successor r := by
  have hrows : ((w.updStep r g).steps.map fun x => x.row).Nodup := by
    have e : (w.updStep r g).steps.map (fun x => x.row) = w.steps.map fun x => x.row := by
      simp only [Wave.updStep, List.map_map]
      refine List.map_congr_left fun x _ => ?_
      by_cases hx : x.row = r <;> simp [hx, hg]
    rwa [e]
  have hframe : (w.updStep r g).frame = w.frame := by
    simp only [Wave.frame, Wave.updStep, List.map_map]
    refine List.map_congr_left fun x hx => ?_
    by_cases hr : x.row = r
    · have hst : w.step? r = some x := hr ▸ find?_key_of_mem hn hx
      have := he x hst
      simp only [Function.comp, if_pos hr, hg, Prod.mk.injEq, true_and]
      by_cases h1 : x.state = .empty
      · simp [h1, this.2 h1]
      · have h2 : (g x).state ≠ .empty := fun c => h1 (this.1 c)
        rw [bne_iff_ne.2 h1, bne_iff_ne.2 h2]
    · simp [hr]
  have hrow := (successor_row (w.updStep r g) r).trans (hframe ▸ (successor_row w r).symm)
  cases hs : w.successor r with
  | none =>
    rw [hs] at hrow
    exact Option.map_eq_none_iff.1 hrow
  | some nxt =>
    rw [hs] at hrow
    obtain ⟨nxt', hs', hr'⟩ := Option.map_eq_some_iff.1 hrow
    have hne := Wave.successor_row_ne hn hs
    have h1 : (w.updStep r g).step? nxt'.row = some nxt' := find?_key_of_mem hrows (Wave.successor_mem hs')
    have h2 : w.step? nxt.row = some nxt := find?_key_of_mem hn (Wave.successor_mem hs)
    rw [hr', Wave.step?_updStep w r nxt.row g hg, h2, Option.map_some, if_neg hne] at h1
    rw [hs', ← h1]

theorem holdStartOf_release_iff {s : State} {n : Nat} {w : Wave} {st : WaveStep} (hw : s.wave? n = some w) :
    (s.holdStartOf n = .release ∧ st.rel.isSome = true) ↔ hasTriggered s w st = true := by
  have e : s.planOfNum n = w.sector.bind s.plan? := by
    rw [State.planOfNum, hw]
    rfl
  rw [State.holdStartOf, e, hasTriggered]
  cases w.sector.bind s.plan? <;> simp [and_comm]

/-- The wave's record once its ended step has triggered, or not: the successor that starts is the WAITING one (R81). -/
theorem withDone_eq {s : State} {w : Wave} (hn : (w.steps.map fun x => x.row).Nodup) {y : WaveStep} :
    withDone s w y = { w with
      steps := w.steps.map fun o =>
        if o.row = y.row then y
        else if hasTriggered s w y = false ∧ w.successor y.row = some o ∧ o.state = .waiting then o.start else o } := by
  refine congrArg (fun l => { w with steps := l }) (List.map_congr_left fun o ho => ?_)
  by_cases hr : o.row = y.row
  · simp only [if_pos hr]
  · simp only [if_neg hr]
    have hsucc : (w.successor y.row).map (fun n => n.row) = some o.row ↔ w.successor y.row = some o := by
      constructor
      · intro h
        obtain ⟨nxt, hs, e⟩ := Option.map_eq_some_iff.1 h
        rw [hs, List.inj_on_of_nodup_map hn (Wave.successor_mem hs) ho e]
      · intro h
        rw [h, Option.map_some]
    simp [hsucc, and_assoc, WaveStep.start]

/-- What the end of a step leaves of its wave, and of the divider (R77, R81, R96). -/
theorem State.enterDone_spec {s : State} (h : WavesOk s) {n r : Nat} {w : Wave} {st : WaveStep} (hw : s.wave? n = some w)
    (hst : w.step? r = some st) (hlive : st.state ≠ .empty) :
    (s.enterDone n r).wave? n = some (withDone s w st.finish) ∧
      (s.enterDone n r).divider = if hasTriggered s w st then s.divider else
        match w.successor r with
        | some nxt => if nxt.state = .waiting then s.divider.place (s.startRequest w nxt) else s.divider
        | none => s.divider := by
  obtain ⟨hm, rfl⟩ := State.wave?_mem hw
  obtain ⟨hms, rfl⟩ := Wave.step?_mem hst
  have hn := h.rows_nodup hm
  have hstep : s.step? w.num st.row = some st := by rw [State.step?, hw]; exact hst
  have hdone : s.enterDone w.num st.row = if hasTriggered s w st then s.updStep w.num st.row WaveStep.finish
      else (s.updStep w.num st.row WaveStep.finish).trigger w.num st.row := by
    unfold State.enterDone
    rw [hstep]
    exact if_congr (holdStartOf_release_iff hw) rfl rfl
  have hw1 : (s.updStep w.num st.row WaveStep.finish).wave? w.num = some (w.updStep st.row WaveStep.finish) := by
    rw [wave?_updStep_self, hw]; rfl
  have hsucc : (w.updStep st.row WaveStep.finish).successor st.row = w.successor st.row :=
    Wave.successor_updStep hn (fun _ => rfl) fun x hx => by
      cases hst.symm.trans hx
      simp [WaveStep.finish, hlive]
  have hwith : withDone s w st.finish = { w with
      steps := w.steps.map fun o =>
        if o.row = st.row then st.finish
        else if hasTriggered s w st = false ∧ w.successor st.row = some o ∧ o.state = .waiting then o.start else o } := withDone_eq hn
  rw [hdone, hwith]
  cases ht : hasTriggered s w st with
  | true =>
    rw [if_pos rfl, if_pos rfl, hw1, Wave.updStep_eq hn hst]
    refine ⟨congrArg (fun l => some { w with steps := l }) (List.map_congr_left fun o _ => ?_), rfl⟩
    simp [WaveStep.finish]
  | false =>
    rw [if_neg Bool.false_ne_true, if_neg Bool.false_ne_true]
    have hok : WavesOk (s.updStep w.num st.row WaveStep.finish) :=
      wavesOk_of_shaped h rfl rfl (Shaped.updStep s w.num st.row fun _ => rfl)
    rcases State.trigger_cases hok w.num st.row with ⟨e, hno⟩ | ⟨w2, nxt, hw2, hs2, hwait, e⟩
    · have hno' : ∀ nxt, w.successor st.row = some nxt → nxt.state ≠ .waiting := fun nxt hs => hno _ nxt hw1 (hsucc.trans hs)
      rw [e, hw1, Wave.updStep_eq hn hst]
      refine ⟨congrArg (fun l => some { w with steps := l }) (List.map_congr_left fun o _ => ?_), ?_⟩
      · rw [if_neg fun hc : false = false ∧ w.successor st.row = some o ∧ o.state = .waiting => hno' o hc.2.1 hc.2.2]
      · cases hs : w.successor st.row with
        | none => rfl
        | some nxt => exact (if_neg (hno' nxt hs)).symm
    · cases hw1.symm.trans hw2
      have hs := hsucc.symm.trans hs2
      rw [e]
      refine ⟨?_, ?_⟩
      · change ((s.updStep w.num st.row WaveStep.finish).updStep w.num nxt.row WaveStep.start).wave? w.num = _
        rw [wave?_updStep_self, hw1, Option.map_some, Wave.updStep_eq hn hst]
        refine congrArg (fun l => some { w with steps := l }) ?_
        rw [List.map_map]
        refine List.map_congr_left fun o ho => ?_
        rw [Function.comp, hs]
        by_cases hr : o.row = st.row
        · have hne : st.finish.row ≠ nxt.row := (Wave.successor_row_ne hn hs).symm
          rw [if_pos hr, if_pos hr, if_neg hne]
        · rw [if_neg hr, if_neg hr]
          by_cases hx : o.row = nxt.row
          · obtain rfl := List.inj_on_of_nodup_map hn ho (Wave.successor_mem hs) hx
            rw [if_pos rfl, if_pos ⟨rfl, rfl, hwait⟩]
          · rw [if_neg hx, if_neg fun hc => hx (by rw [Option.some.inj hc.2.1])]
      · simp only [hs, if_pos hwait]
        rfl

/-- The wave's record after the end of a step does not depend on what that step was, while it is not EMPTY (R43, R81). -/
theorem withDone_updStep {s u : State} {w : Wave} (hn : (w.steps.map fun x => x.row).Nodup) {y : WaveStep} {g : WaveStep → WaveStep}
    (hg : ∀ x, (g x).row = x.row) (he : ∀ st, w.step? y.row = some st → ((g st).state = .empty ↔ st.state = .empty))
    (hp : u.plan? = s.plan?) : withDone u (w.updStep y.row g) y = withDone s w y := by
  have ht : hasTriggered u (w.updStep y.row g) y = hasTriggered s w y := by
    simp only [hasTriggered, hp]
    rfl
  unfold withDone
  rw [ht, Wave.successor_updStep hn hg he]
  refine congrArg (fun l => { w with steps := l }) ?_
  simp only [Wave.updStep, List.map_map]
  refine List.map_congr_left fun o _ => ?_
  by_cases hr : o.row = y.row <;> simp [hr, hg]

/-! ### The released step (R88 to R90) -/

theorem Wave.successor_congr {v w : Wave} (h : v.steps = w.steps) (r : Nat) : v.successor r = w.successor r := by
  cases v
  cases w
  cases h
  rfl

/-- The latches and the references that a release leaves (R37, R80). -/
theorem Wave.releaseLatches_eq (w : Wave) (st : WaveStep) (df uf : Nat) : w.releaseLatches st df uf = { w with
    latchW := w.latchW && (st.forced || !st.gate.testsW)
    latchG := w.latchG && (st.forced || !st.gate.testsG)
    dRef := if st.forced = false ∧ (st.gate.testsW = true ∨ st.gate.testsG = true) then some df else w.dRef
    uRef := if st.forced = false ∧ (st.gate.testsW = true ∨ st.gate.testsG = true) then some uf else w.uRef } := by
  unfold Wave.releaseLatches
  cases st.forced <;> cases st.gate.testsW <;> cases st.gate.testsG <;> simp

/-- A released step without its marks, with the counts of its members. -/
def State.takenOn (s : State) (ts : List (Nat × Int)) (r : Nat) (x : WaveStep) : WaveStep :=
  { x with
    forced := false, owesTest := false, owesDeadline := false
    needed := x.needed + (s.members r).countP fun n => (targetIn ts n).isSome
    settled := x.settled + (settledAtRelease s ts r).length
    faulted := x.faulted + (faultedAtRelease s ts r).length }

/-- The released step's wave before the step's own state is decided. -/
def State.takenOnWave (s : State) (w : Wave) (st : WaveStep) (r : Nat) : Wave :=
  (w.releaseLatches st s.df s.uf).updStep r (s.takenOn w.targets r)

/-- A step of a wave can release. -/
structure Releasing (s : State) (n r : Nat) (w : Wave) (st : WaveStep) : Prop where
  waves : WavesOk s
  table : RowTableOk s
  row : r ≤ 15
  wave : s.wave? n = some w
  step : w.step? r = some st
  holding : st.state = .holding
  running : w.running = true

namespace Releasing

variable {s : State} {n r : Nat} {w : Wave} {st : WaveStep} (h : Releasing s n r w st)
include h

theorem rows : ((w.releaseLatches st s.df s.uf).steps.map fun x => x.row).Nodup := by
  rw [(w.releaseLatches_same st s.df s.uf).2.2]
  exact h.waves.rows_nodup (State.wave?_mem h.wave).1

theorem latched_step : (w.releaseLatches st s.df s.uf).step? r = some st := by
  rw [Wave.step?, (w.releaseLatches_same st s.df s.uf).2.2]
  exact h.step

/-- The members are handled: those that need motion are queued (R88). -/
theorem releasing_eq : s.releasing w st n r =
    s.takeInAll ((s.updWave n fun x => x.releaseLatches st s.df s.uf).updStep n r fun x =>
      { x with forced := false, owesTest := false, owesDeadline := false }) w.targets n r (s.members r) := by
  refine State.releaseMembers_eq w.targets n r (h.table.members_nodup h.row) fun m hm => ?_
  obtain ⟨x, hx, hn, -⟩ := ((h.table.2.2 r h.row).1 m).1 hm
  have := h.table.turbine?_of_mem hx
  rw [hn] at this
  change s.turbine? m ≠ none
  simp [this]

theorem releasing_low : (s.releasing w st n r).low = s.low ++ queuedAtRelease s w.targets r := by
  rw [h.releasing_eq, queuedAtRelease_eq]
  rfl

theorem releasing_turbines : (s.releasing w st n r).turbines =
    s.turbines.map (queueAmong w.targets n r (queuedAtRelease s w.targets r)) := by
  rw [h.releasing_eq, queuedAtRelease_eq]
  rfl

theorem releasing_wave? : (s.releasing w st n r).wave? n = some (s.takenOnWave w st r) := by
  rw [h.releasing_eq]
  change (((s.updWave n fun x => x.releaseLatches st s.df s.uf).updStep n r fun x =>
    { x with forced := false, owesTest := false, owesDeadline := false }).updStep n r (WaveStep.counting _ _ _)).wave? n = _
  rw [State.updStep_updStep _ n r (f := fun x => { x with forced := false, owesTest := false, owesDeadline := false }) fun _ => rfl,
    wave?_updStep_self,
    State.wave?_updWave s n n _ fun w => (w.releaseLatches_same st s.df s.uf).1, h.wave]
  obtain ⟨-, hn⟩ := State.wave?_mem h.wave
  rw [Option.map_some, Option.map_some, if_pos hn, State.takenOnWave]
  have e : (WaveStep.counting ((s.members r).countP fun m => (targetIn w.targets m).isSome) ((s.members r).filter (s.settlesAt w.targets)).length
      ((s.members r).filter (s.faultsAt w.targets)).length ∘ fun x : WaveStep =>
        { x with forced := false, owesTest := false, owesDeadline := false }) = s.takenOn w.targets r := by
    funext x
    simp only [State.takenOn, settledAtRelease_eq, faultedAtRelease_eq]
    rfl
  rw [e]

theorem takenOn_step : (s.takenOnWave w st r).step? r = some (s.takenOn w.targets r st) := by
  rw [State.takenOnWave, Wave.step?_updStep _ r r (s.takenOn w.targets r) fun _ => rfl, h.latched_step,
    Option.map_some, if_pos (Wave.step?_mem h.step).2]

/-- Nothing is queued for the step where its release queues nothing (R90). -/
theorem queuedFor_iff (hno : ∀ x ∈ s.turbines, x.live.owner ≠ some (.low n r)) :
    (s.releasing w st n r).queuedFor n r = [] ↔ queuedAtRelease s w.targets r = [] := by
  rw [State.queuedFor, List.filter_eq_nil_iff]
  have hown : ∀ m, (s.releasing w st n r).turbine? m = (s.turbine? m).map (queueAmong w.targets n r (queuedAtRelease s w.targets r)) := fun m => by
    rw [State.turbine?, h.releasing_turbines]
    exact find?_map_key (fun x : Turbine => x.node) _ (queueAmong_node _ _ _ _) m s.turbines
  constructor
  · intro hall
    refine List.eq_nil_iff_forall_not_mem.2 fun m hm => hall m (by rw [h.releasing_low]; exact List.mem_append_right _ hm) ?_
    obtain ⟨x, hx, hn, -⟩ := ((h.table.2.2 r h.row).1 m).1 (List.mem_filter.1 hm).1
    have hxf := h.table.turbine?_of_mem hx
    rw [hn] at hxf
    simp [State.ownerOf, hown, hxf, queueAmong, hn, hm]
  · intro hq m _ hc
    rw [State.ownerOf, hown, hq, queueAmong_nil, Option.map_id, id] at hc
    cases hx : s.turbine? m with
    | none => rw [hx] at hc; cases hc
    | some x =>
      rw [hx] at hc
      exact hno x (State.turbine?_mem hx).1 (by simpa using hc)

theorem releaseStep_eq : s.releaseStep n r = (s.releasing w st n r).decideRelease n r := State.releaseStep_eq h.wave h.step

/-- Only the waves and the divider change once the members are handled. -/
theorem only : WavesOnly (s.releasing w st n r) (s.releaseStep n r) := by
  rw [h.releaseStep_eq]
  unfold State.decideRelease
  split
  · exact WavesOnly.enterDone _ n r
  · rfl

/-- The step enters RELEASING where its release queues turbines (R90). -/
theorem queues (hno : ∀ x ∈ s.turbines, x.live.owner ≠ some (.low n r)) (hq : queuedAtRelease s w.targets r ≠ []) :
    (s.releaseStep n r).wave? n = some { w.releaseLatches st s.df s.uf with
        steps := w.steps.map fun o => if o.row = r then { s.takenOn w.targets r st with state := .releasing } else o } ∧
      (s.releaseStep n r).divider = s.divider := by
  rw [h.releaseStep_eq, State.decideRelease, if_neg fun c => hq ((h.queuedFor_iff hno).1 c)]
  constructor
  · rw [wave?_updStep_self, h.releasing_wave?, Option.map_some, State.takenOnWave,
      Wave.updStep_updStep _ r (f := s.takenOn w.targets r) fun _ => rfl,
      Wave.updStep_eq h.rows h.latched_step, (w.releaseLatches_same st s.df s.uf).2.2]
    rfl
  · rw [h.releasing_eq]
    rfl

/-- The step is DONE where its release queues nothing, and its WAITING successor starts (R81, R90, R96). -/
theorem done (hno : ∀ x ∈ s.turbines, x.live.owner ≠ some (.low n r)) (hq : queuedAtRelease s w.targets r = []) :
    (s.releaseStep n r).wave? n = some (withDone s (w.releaseLatches st s.df s.uf)
        { s.takenOn w.targets r st with state := .done, set := some st.hold }) ∧
      ∀ p, w.sector.bind s.plan? = some p → (s.releaseStep n r).divider = afterDone s w p st s.divider := by
  have hrow := (Wave.step?_mem h.step).2
  have hplan : (s.releasing w st n r).plan? = s.plan? := by rw [h.releasing_eq]; rfl
  obtain ⟨hwave, hdiv⟩ := State.enterDone_spec (wavesOk_releasing h.waves w st n r) h.releasing_wave? h.takenOn_step
    (by rw [State.takenOn, h.holding]; simp)
  rw [h.releaseStep_eq, State.decideRelease, if_pos ((h.queuedFor_iff hno).2 hq)]
  have hfin : (s.takenOn w.targets r st).finish = { s.takenOn w.targets r st with state := .done, set := some st.hold } := rfl
  have hempty : ∀ x, (w.releaseLatches st s.df s.uf).step? st.row = some x →
      ((s.takenOn w.targets r x).state = .empty ↔ x.state = .empty) := fun _ _ => .rfl
  constructor
  · rw [hwave, hfin, State.takenOnWave]
    subst hrow
    exact congrArg some (withDone_updStep (y := { s.takenOn w.targets st.row st with state := .done, set := some st.hold }) h.rows
      (g := s.takenOn w.targets st.row) (fun _ => rfl) hempty hplan)
  · intro p hp
    have hsec : (s.takenOnWave w st r).sector = w.sector := by
      rw [State.takenOnWave, Wave.releaseLatches_eq]; rfl
    have hnum : (s.takenOnWave w st r).num = w.num := by
      rw [State.takenOnWave, Wave.releaseLatches_eq]; rfl
    have htrig : hasTriggered (s.releasing w st n r) (s.takenOnWave w st r) (s.takenOn w.targets r st) = hasTriggered s w st := by
      simp only [hasTriggered, hplan, hsec]
      rfl
    have hsucc : (s.takenOnWave w st r).successor r = w.successor r := by
      rw [State.takenOnWave, Wave.successor_updStep h.rows (g := s.takenOn w.targets r) (fun _ => rfl) fun _ _ => .rfl]
      exact Wave.successor_congr (w.releaseLatches_same st s.df s.uf).2.2 r
    have hreq : ∀ nxt, (s.releasing w st n r).startRequest (s.takenOnWave w st r) nxt = holdRequest s w p nxt := fun nxt => by
      rw [State.startRequest, State.planOf, hnum, hsec, hplan, hp, h.releasing_eq]
      rfl
    have hd : (s.releasing w st n r).divider = s.divider := by rw [h.releasing_eq]; rfl
    rw [hdiv, htrig, hsucc, hd, afterDone, afterTrigger, hrow]
    simp only [hreq] <;> rfl

end Releasing

/-! ### The end of a release -/

/-- The arbiter grants nothing where the yaw-hold line keeps the LOW requests and nothing else is queued (R128, R132). -/
theorem arbiterServed_of_held {s : State} (hh : s.high = []) (hr : s.retargets = []) (hy : s.holdActive = true) : ArbiterServed s := by
  rw [arbiterServed_iff, State.arbiterStep, hr]
  have : s.grantable = none := by
    unfold State.grantable
    rw [hh, hy]
    split
    · rfl
    · cases s.low <;> simp
  simp [this]

theorem State.judgeEnd_stays (s : State) : s.judgeEnd.waves = s.waves ∧ s.judgeEnd.low = s.low ∧ s.judgeEnd.high = s.high ∧
    s.judgeEnd.retargets = s.retargets ∧ s.judgeEnd.turbines = s.turbines ∧ s.judgeEnd.divider = s.divider := by
  unfold State.judgeEnd
  split
  · exact ⟨rfl, rfl, rfl, rfl, rfl, rfl⟩
  · split <;> exact ⟨rfl, rfl, rfl, rfl, rfl, rfl⟩

/-- What a state of a release shows at the end of its event: completed waves leave, and nothing more (R71, R148). -/
theorem State.settled_released {s v : State} {l : List Nat} (hok : WavesOk v) (hv : OnlyAwaiting v.completeWaves)
    (hh : v.high = []) (hr : v.retargets = []) (hy : v.completeWaves.judgeEnd.holdActive = true) (ht : v.completeWaves.settleAfter l = s) :
    s.waves = v.waves.filter (fun w => !w.finished) ∧ s.low = v.low ∧ s.turbines = v.turbines ∧ s.divider = v.divider := by
  have hw := WavesOnly.completeWaves v
  obtain ⟨h1, h2, h3, h4, h5, h6⟩ := v.completeWaves.judgeEnd_stays
  have e : v.completeWaves.settleAfter l = v.completeWaves.judgeEnd := by
    unfold State.settleAfter State.releaseTests
    rw [hv.releaseLoop]
    exact serveArbiter_of_served (arbiterServed_of_held (h3.trans (hw.high.trans hh)) (h4.trans (hw.retargets.trans hr)) hy)
  rw [← ht, e]
  exact ⟨h1.trans (completeWaves_waves hok), h2.trans hw.low, h5.trans hw.turbines, h6.trans (completeWaves_aside v).1⟩

theorem Wave.finished_iff {w : Wave} : w.finished = true ↔ w.running = true ∧ ∀ o ∈ w.steps, o.state.terminal = true := by
  simp [Wave.finished]

theorem Wave.not_finished {w : Wave} {o : WaveStep} (ho : o ∈ w.steps) (hl : o.state.terminal = false) : w.finished = false := by
  refine Bool.eq_false_iff.2 fun h => ?_
  rw [(Wave.finished_iff.1 h).2 o ho] at hl
  cases hl

/-- The wave of a step that is DONE goes on while another of its steps has not ended, and is finished otherwise (R71). -/
theorem withDone_finished {s : State} {w : Wave} {y : WaveStep} (hrun : w.running = true) (hy : y.state.terminal = true) :
    (withDone s w y).finished = true ↔ ∀ o ∈ w.steps, o.row ≠ y.row → o.state.terminal = true := by
  rw [Wave.finished_iff]
  have hr : (withDone s w y).running = true := hrun
  simp only [hr, true_and]
  unfold withDone
  simp only [List.forall_mem_map]
  refine forall₂_congr fun o _ => ?_
  by_cases ho : o.row = y.row
  · simp [ho, hy]
  · rw [if_neg ho]
    simp only [ne_eq, ho, not_false_eq_true, true_implies]
    split
    · rename_i hs
      simp only [Bool.and_eq_true, beq_iff_eq] at hs
      simp [hs.2, StepState.terminal]
    · exact .rfl

theorem Releasing.of_canRelease {s : State} {w : Wave} {st : WaveStep} (hok : WavesOk s) (ht : RowTableOk s) (hr : st.row ≤ 15)
    (hw : w ∈ s.waves) (hst : st ∈ w.steps) (hc : s.canRelease w.num st.row = true) : Releasing s w.num st.row w st := by
  have hwf := hok.wave?_of_mem hw
  have hsf : w.step? st.row = some st := find?_key_of_mem (hok.rows_nodup hw) hst
  have hrun : w.running = true := by
    simp only [State.canRelease, hwf, Bool.and_eq_true] at hc
    exact hc.1
  obtain ⟨w', st', hw', hst', hh, -⟩ := s.canRelease_spec hc
  cases hwf.symm.trans hw'
  cases hsf.symm.trans hst'
  exact ⟨hok, ht, hr, hwf, hsf, hh, hrun⟩

/-- Settles O56: the members are handled, the step is RELEASING or DONE, and nothing more follows at the end of the event. -/
theorem stepReleaseQueues : Obligations.StepReleaseQueues := by
  refine ⟨fun s n r hc => ?_, ?_⟩
  · change Host.Outcome.next (s.whenRunning _) = _
    unfold State.whenRunning
    simp [hc]
  · rintro s _ _ w st ho hok htab hr hw rfl hst rfl hc hone hforced hno hhigh hret hhold queued
    have h := Releasing.of_canRelease hok htab hr hw hst hc
    have hlone : Lone s w.num st.row := by
      refine ⟨fun m q x hx hh => ?_, fun q x hx hfo => ?_⟩
      · obtain ⟨w', hw', rfl, hm', rfl⟩ := State.step?_mem hx
        exact hone w' hw' x hm' hh
      · obtain ⟨w', hw', hn, hm', rfl⟩ := State.step?_mem hx
        obtain rfl := List.inj_on_of_nodup_map hok.nums_nodup hw' hw hn
        exact hforced x hm' hfo
    have hst1 := steady_propagates.releaseStep s w.num st.row
    have hokv : WavesOk (s.releaseStep w.num st.row) :=
      wavesOk_of_shaped hok hst1.plans hst1.waveCounter (shaped_releaseStep hok h.wave h.step)
    have hsteady : Steady s ((s.releaseStep w.num st.row).completeWaves.settleAfter [w.num]) :=
      (hst1.trans (steady_propagates.completeWaves _)).trans (steady_propagates.settleAfter _ _)
    have hquiet : ((s.releaseStep w.num st.row).completeWaves.settleAfter [w.num]).quiet = s.quiet :=
      ((quiet_propagates.settleAfter _ _).trans (quiet_propagates.completeWaves _)).trans (quiet_propagates.releaseStep _ _ _)
    have hactive : (s.releaseStep w.num st.row).completeWaves.judgeEnd.holdActive = true := by
      have hs := (hst1.trans (steady_propagates.completeWaves _)).trans (steady_propagates.judgeEnd _)
      have hp := hs.params
      have hy := hs.yholdLine
      rw [State.holdActive, hp, hy]
      exact hhold
    refine ⟨_, exec_stepRelease ho hc, ?_⟩
    generalize ht : (s.releaseStep w.num st.row).completeWaves.settleAfter [w.num] = t at hsteady hquiet ⊢
    have honly := h.only
    have hs0 : (s.releasing w st w.num st.row).high = [] ∧ (s.releasing w st w.num st.row).retargets = [] := by
      rw [h.releasing_eq]; exact ⟨hhigh, hret⟩
    obtain ⟨hwaves, hlow, htur, hdiv⟩ := State.settled_released hokv (hlone.released hok hc) (honly.high.trans hs0.1)
      (honly.retargets.trans hs0.2) hactive ht
    rw [hlow, htur, hdiv, honly.low, honly.turbines, h.releasing_low, h.releasing_turbines]
    refine ⟨rfl, fun n hn => ?_, fun x hx hn => ?_, ?_, hquiet, hsteady⟩
    · obtain ⟨x, hx, hxn, -⟩ := ((htab.2.2 st.row hr).1 n).1 (List.mem_filter.1 hn).1
      refine ⟨_, List.mem_map_of_mem hx, (queueAmong_node _ _ _ _ _).trans hxn, ?_⟩
      subst hxn
      rw [queueAmong, if_pos hn]
      exact ⟨rfl, rfl, rfl⟩
    · refine List.mem_map.2 ⟨x, hx, ?_⟩
      rw [queueAmong, if_neg hn]
    · intro renewed w1 st1
      have hw1 : w1 = w.releaseLatches st s.df s.uf := (w.releaseLatches_eq st s.df s.uf).symm
      have hst1 : st1 = s.takenOn w.targets st.row st := rfl
      rw [hw1, hst1]
      refine ⟨fun hq => ?_, fun hq => ?_⟩
      · obtain ⟨hwv, hdv⟩ := h.queues hno hq
        refine ⟨?_, hdv⟩
        rw [hwaves]
        refine List.mem_filter.2 ⟨(State.wave?_mem hwv).1, ?_⟩
        rw [Bool.not_eq_true']
        refine Wave.not_finished (List.mem_map_of_mem hst) ?_
        rw [if_pos rfl]
        rfl
      · obtain ⟨hwv, hdv⟩ := h.done hno hq
        have hrun : (w.releaseLatches st s.df s.uf).running = true := (w.releaseLatches_same st s.df s.uf).2.1.trans h.running
        have hfin := withDone_finished (s := s) (y := { s.takenOn w.targets st.row st with state := .done, set := some st.hold }) hrun rfl
        rw [(w.releaseLatches_same st s.df s.uf).2.2] at hfin
        rw [hwaves]
        refine ⟨fun ⟨o, hom, hor, hol⟩ => ?_, fun hall w' hw' hn => ?_, hdv⟩
        · refine List.mem_filter.2 ⟨(State.wave?_mem hwv).1, ?_⟩
          rw [Bool.not_eq_true', Bool.eq_false_iff]
          intro hf
          rw [hfin.1 hf o hom hor] at hol
          cases hol
        · obtain ⟨hm, hnf⟩ := List.mem_filter.1 hw'
          have hwf := hokv.wave?_of_mem hm
          rw [hn, hwv] at hwf
          rw [← Option.some.inj hwf, hfin.2 hall] at hnf
          cases hnf

end Sys2Proof.Machine

/-! A veer event, exactly: what the cancellation of the unreleased steps makes of the waves, the turbines and the divider (R98). -/

namespace Sys2Proof.Machine

/-! ### Turbines that become IDLE -/

/-- A turbine without its request (R126). -/
def Turbine.idled (x : Turbine) : Turbine := { x with live := x.live.toIdle }

theorem relives_toIdle (ns : List Nat) (T : List Turbine) :
    ns.foldl (fun T n => relive n Live.toIdle T) T = T.map fun x => if x.node ∈ ns then x.idled else x := by
  induction ns generalizing T with
  | nil => simp
  | cons n ns ih =>
    rw [List.foldl_cons, ih, relive, List.map_map]
    refine List.map_congr_left fun x _ => ?_
    by_cases hn : x.node = n
    · by_cases hm : n ∈ ns <;> simp [hn, hm, Turbine.idled, Live.toIdle]
    · simp [hn]

/-- The nodes queued for a LOW step are those of the turbines that it owns and that are QUEUED (R124). -/
theorem Core.mem_queuedFor_iff {s : State} (h : Core s) {x : Turbine} (hx : x ∈ s.turbines) (n r : Nat) :
    x.node ∈ s.queuedFor n r ↔ x.live.owner = some (.low n r) ∧ x.live.move = .queued := by
  refine ⟨fun hm => ?_, fun ⟨ho, hm⟩ => h.mem_queuedFor hx ho hm⟩
  obtain ⟨y, hy, hn, ho, hmv, -⟩ := h.queuedFor hm
  rw [List.inj_on_of_nodup_map h.table.nodes_nodup hx hy hn.symm]
  exact ⟨ho, hmv⟩

theorem Core.length_queuedFor {s : State} (h : Core s) (n r : Nat) : (s.queuedFor n r).length = queuedOf s n r := by
  have hp : (s.queuedFor n r).Perm
      ((s.turbines.filter fun x => x.live.owner == some (.low n r) && x.live.move == .queued).map fun x => x.node) := by
    refine (List.perm_ext_iff_of_nodup (h.books.low.1.filter _) (h.table.nodes_nodup.sublist (List.filter_sublist.map _))).2 fun m => ?_
    constructor
    · intro hm
      obtain ⟨x, hx, rfl, ho, hmv, -⟩ := h.queuedFor hm
      exact List.mem_map.2 ⟨x, List.mem_filter.2 ⟨hx, by simp [ho, hmv]⟩, rfl⟩
    · intro hm
      obtain ⟨x, hx, rfl⟩ := List.mem_map.1 hm
      obtain ⟨hx, hc⟩ := List.mem_filter.1 hx
      simp only [Bool.and_eq_true, beq_iff_eq] at hc
      exact h.mem_queuedFor hx hc.1 hc.2
  rw [hp.length_eq, List.length_map, queuedOf, List.countP_eq_length_filter]

theorem State.unqueued_turbines (s : State) (ns : List Nat) :
    (s.unqueued ns).turbines = s.turbines.map fun x => if x.node ∈ ns then x.idled else x := relives_toIdle ns s.turbines

/-- The turbines of a step that hold a slot carry on when its queued ones leave it (R98). -/
theorem Core.holdsSlotFor_unqueued {s : State} (h : Core s) (n r : Nat) :
    (s.unqueued (s.queuedFor n r)).holdsSlotFor n r = holdsSlot s n r := by
  rw [State.holdsSlotFor, State.unqueued_turbines, List.any_map, holdsSlot, Bool.eq_iff_iff, List.any_eq_true, List.any_eq_true]
  refine exists_congr fun x => and_congr_right fun hx => ?_
  by_cases hq : x.node ∈ s.queuedFor n r
  · obtain ⟨-, hm⟩ := (h.mem_queuedFor_iff hx n r).1 hq
    simp [hq, hm, Turbine.idled, Live.toIdle]
  · simp [hq]

/-! ### The steps at some keys -/

/-- A wave's record once its steps at some keys are drained (R98). -/
def drainAt (s : State) (l : List (Nat × Nat)) (w : Wave) : Wave :=
  { w with steps := w.steps.map fun st => if (w.num, st.row) ∈ l then drainedStep s w.num st else st }

/-- A hold time that the steps at some keys await (R79). -/
def pendingAt (s : State) (l : List (Nat × Nat)) (q : Requester) : Bool :=
  match q with
  | .hold n r => decide ((n, r) ∈ l) && (s.step? n r).any fun st => (st.state == .waiting || st.state == .holding) && st.cmpA == .pending
  | .deadline _ => false

/-- The turbines that an owner has. -/
def State.ownedBy (s : State) (o : Owner) : List Turbine := s.turbines.filter fun x => x.live.owner == some o

/-- A state without what a cancellation of steps touches. -/
def State.undrained (s : State) : State := { s with waves := [], divider := {}, turbines := [], low := [] }

/-- The steps at some keys are drained: those that move no turbine are cancelled, and the others lose their queued requests (R98). -/
structure Drains (s : State) (l : List (Nat × Nat)) (t : State) : Prop where
  waves : t.waves = s.waves.map (drainAt s l)
  divider : t.divider = withdrawn (pendingAt s l) s.divider
  turbines : ∀ x ∈ s.turbines, ∃ y ∈ t.turbines, y = x ∨ (x.waitsLow = true ∧ y = x.idled)
  owned : ∀ n r, (n, r) ∉ l → t.ownedBy (.low n r) = s.ownedBy (.low n r)
  rest : t.undrained = s.undrained

theorem drainedStep_row (s : State) (n : Nat) (st : WaveStep) : (drainedStep s n st).row = st.row := by
  unfold drainedStep
  split <;> rfl

theorem holdsSlot_eq (s : State) (n r : Nat) :
    holdsSlot s n r = (s.ownedBy (.low n r)).any fun x => x.live.move == .moving || x.live.move == .retarget := by
  rw [holdsSlot, State.ownedBy, List.any_filter]

theorem queuedOf_eq (s : State) (n r : Nat) : queuedOf s n r = (s.ownedBy (.low n r)).countP fun x => x.live.move == .queued := by
  rw [queuedOf, State.ownedBy, List.countP_filter]
  simp only [Bool.and_comm]

theorem drainedStep_congr {s t : State} {n : Nat} {st : WaveStep} (h : t.ownedBy (.low n st.row) = s.ownedBy (.low n st.row)) :
    drainedStep t n st = drainedStep s n st := by
  simp only [drainedStep, holdsSlot_eq, queuedOf_eq, h]

theorem Drains.step? {s t : State} {l : List (Nat × Nat)} (h : Drains s l t) {n r : Nat} (hk : (n, r) ∉ l) : t.step? n r = s.step? n r := by
  have hw : t.wave? n = (s.wave? n).map (drainAt s l) := by
    rw [State.wave?, h.waves]
    exact find?_map_key (fun w : Wave => w.num) (drainAt s l) (fun _ => rfl) n s.waves
  rw [State.step?, hw, State.step?]
  cases hs : s.wave? n with
  | none => rfl
  | some w =>
    obtain ⟨-, rfl⟩ := State.wave?_mem hs
    have hst := find?_map_key (fun x : WaveStep => x.row) (fun st => if (w.num, st.row) ∈ l then drainedStep s w.num st else st)
      (fun st => by split <;> simp [drainedStep_row]) r w.steps
    change (drainAt s l w).steps.find? _ = w.steps.find? _
    rw [drainAt, hst]
    cases hf : w.steps.find? fun x => x.row == r with
    | none => rfl
    | some st =>
      have hr : st.row = r := by simpa using List.find?_some hf
      rw [Option.map_some, hr, if_neg hk]

theorem Drains.nil (s : State) : Drains s [] s where
  waves := by
    have : drainAt s [] = id := funext fun w => by simp [drainAt]
    rw [this, List.map_id]
  divider := by
    have : pendingAt s [] = fun _ => false := funext fun q => by cases q <;> simp [pendingAt]
    rw [this, withdrawn_none]
  turbines x hx := ⟨x, hx, .inl rfl⟩
  owned _ _ _ := rfl
  rest := rfl

/-- Keys are drained one after another. -/
theorem Drains.cons {s t u : State} {k : Nat × Nat} {l : List (Nat × Nat)} (h : Drains s [k] t) (hu : Drains t l u) (hk : k ∉ l) :
    Drains s (k :: l) u where
  waves := by
    rw [hu.waves, h.waves, List.map_map]
    refine List.map_congr_left fun w _ => ?_
    simp only [Function.comp, drainAt, List.map_map, Wave.mk.injEq, true_and, and_true]
    refine List.map_congr_left fun st _ => ?_
    by_cases he : (w.num, st.row) = k
    · simp [he, hk, drainedStep_row]
    · by_cases hm : (w.num, st.row) ∈ l
      · simp [he, hm, drainedStep_congr (h.owned w.num st.row (by simpa using he))]
      · simp [he, hm]
  divider := by
    rw [hu.divider, h.divider, withdrawn_withdrawn]
    congr 1
    funext q
    cases q with
    | deadline => rfl
    | hold n r =>
      by_cases he : (n, r) = k
      · simp [pendingAt, he, hk]
      · by_cases hm : (n, r) ∈ l
        · simp [pendingAt, he, hm, h.step? (n := n) (r := r) (by simpa using he)]
        · simp [pendingAt, he, hm]
  turbines x hx := by
    obtain ⟨y, hy, hxy⟩ := h.turbines x hx
    obtain ⟨z, hz, hyz⟩ := hu.turbines y hy
    refine ⟨z, hz, ?_⟩
    rcases hxy with rfl | ⟨hw, rfl⟩
    · exact hyz
    · rcases hyz with rfl | ⟨hc, -⟩
      · exact .inr ⟨hw, rfl⟩
      · cases hc
  owned n r hn := by
    rw [List.mem_cons, not_or] at hn
    rw [hu.owned n r hn.2, h.owned n r (by simpa using hn.1)]
  rest := hu.rest.trans h.rest

/-! ### One step is drained -/

theorem pendingAt_single (s : State) (n r : Nat) : pendingAt s [(n, r)] = fun q =>
    ((s.step? n r).any fun st => (st.state == .waiting || st.state == .holding) && st.cmpA == .pending) && q == .hold n r := by
  funext q
  cases q with
  | deadline m => simp [pendingAt]
  | hold m k =>
    by_cases c : m = n ∧ k = r
    · obtain ⟨rfl, rfl⟩ := c
      simp [pendingAt]
    · have h1 : (m, k) ∉ [(n, r)] := by simpa using c
      have h2 : (Requester.hold m k == .hold n r) = false := by simpa using c
      simp only [pendingAt, h1, h2, decide_false, Bool.false_and, Bool.and_false]

/-- A change of the step at a key that drains it. -/
theorem updStep_waves_drainAt {s : State} (h : WavesOk s) {n r : Nat} {g : WaveStep → WaveStep}
    (hg : ∀ st, s.step? n r = some st → g st = drainedStep s n st) : (s.updStep n r g).waves = s.waves.map (drainAt s [(n, r)]) := by
  refine List.map_congr_left fun w hw => ?_
  by_cases hn : w.num = n
  · rw [if_pos hn]
    refine congrArg (fun l => { w with steps := l }) (List.map_congr_left fun x hx => ?_)
    by_cases hr : x.row = r
    · have hst := h.step?_of_mem hw hx
      rw [hn, hr] at hst
      simp [hn, hr, hg x hst]
    · simp [hr]
  · rw [if_neg hn]
    simp [drainAt, hn]

/-- A cancelled step has lost its pending hold time (R79, R98). -/
theorem drains_cancelStep {s : State} (h : Sound s) {n r : Nat} {st : WaveStep} (hst : s.step? n r = some st) (hu : st.state.unreleased) :
    Drains s [(n, r)] (s.cancelStep n r) := by
  have hdrain : drainedStep s n st = { st with
      state := .cancelled, cmpA := if st.cmpA = .pending then .absent else st.cmpA, owesTest := false, owesDeadline := false } := by
    unfold drainedStep
    rcases hu with e | e <;> rw [e]
  have hun : (st.state == .waiting || st.state == .holding) = true := by rcases hu with e | e <;> rw [e] <;> rfl
  have hd : (s.cancelStep n r).divider = withdrawn (pendingAt s [(n, r)]) s.divider := by
    have := divider_dropHold hst
    rw [pendingAt_single, hst, Option.any_some, hun, Bool.true_and]
    exact this
  by_cases hp : st.cmpA = .pending
  · have e : s.cancelStep n r = (s.withdraw (.hold n r)).updStep n r fun x =>
        { x with state := .cancelled, cmpA := .absent, owesTest := false, owesDeadline := false } := by
      rw [State.cancelStep, State.dropHold_of_pending hst hp, State.updStep_updStep _ n r (f := fun x => { x with cmpA := .absent }) fun _ => rfl]
      rfl
    refine ⟨?_, hd, ?_, ?_, ?_⟩ <;> rw [e]
    · exact updStep_waves_drainAt (s := s) h.waves fun x hx => by
        cases hst.symm.trans hx
        rw [hdrain, if_pos hp]
    · exact fun x hx => ⟨x, hx, .inl rfl⟩
    · exact fun _ _ _ => rfl
    · rfl
  · have e : s.cancelStep n r = s.updStep n r fun x => { x with state := .cancelled, owesTest := false, owesDeadline := false } := by
      rw [State.cancelStep, State.dropHold_of_not_pending hst hp]
    refine ⟨?_, hd, ?_, ?_, ?_⟩ <;> rw [e]
    · exact updStep_waves_drainAt h.waves fun x hx => by
        cases hst.symm.trans hx
        rw [hdrain, if_neg hp]
    · exact fun x hx => ⟨x, hx, .inl rfl⟩
    · exact fun _ _ _ => rfl
    · rfl

/-- A RELEASING step has lost its queued requests (R98, R126). -/
theorem drains_unqueueStep {s : State} (h : Sound s) {n r : Nat} {st : WaveStep} (hst : s.step? n r = some st)
    (hrel : st.state = .releasing) : Drains s [(n, r)] (s.unqueueStep n r) := by
  have hnone : pendingAt s [(n, r)] = fun _ => false := by
    rw [pendingAt_single, hst, Option.any_some, hrel]
    rfl
  obtain ⟨-, -, -, -, hrow⟩ := State.step?_mem hst
  rw [State.unqueueStep_eq]
  refine ⟨?_, ?_, fun x hx => ?_, fun m q hne => ?_, rfl⟩
  · exact updStep_waves_drainAt (s := s) h.waves fun x hx => by
      cases hst.symm.trans hx
      rw [drainedStep, hrel, h.holdsSlotFor_unqueued, h.length_queuedFor, hrow]
  · rw [hnone, withdrawn_none]
    rfl
  · change ∃ y ∈ (s.unqueued (s.queuedFor n r)).turbines, _
    rw [State.unqueued_turbines]
    refine ⟨_, List.mem_map_of_mem hx, ?_⟩
    by_cases hm : x.node ∈ s.queuedFor n r
    · obtain ⟨ho, hmv⟩ := (h.mem_queuedFor_iff hx n r).1 hm
      rw [if_pos hm]
      exact .inr ⟨by simp [Turbine.waitsLow, ho, hmv], rfl⟩
    · rw [if_neg hm]
      exact .inl rfl
  · change (s.unqueued (s.queuedFor n r)).turbines.filter _ = s.turbines.filter _
    have hmq : ∀ x ∈ s.turbines, x.node ∈ s.queuedFor n r → x.live.owner ≠ some (.low m q) := fun x hx hm ho => by
      rw [((h.mem_queuedFor_iff hx n r).1 hm).1] at ho
      obtain ⟨rfl, rfl⟩ : n = m ∧ r = q := by simpa using ho
      exact hne (List.mem_singleton_self _)
    rw [State.unqueued_turbines, List.filter_map]
    have hsame : s.turbines.filter ((fun x => x.live.owner == some (.low m q)) ∘ fun x => if x.node ∈ s.queuedFor n r then x.idled else x) =
        s.turbines.filter fun x => x.live.owner == some (.low m q) := List.filter_congr fun x hx => by
      by_cases hm : x.node ∈ s.queuedFor n r
      · simp [hm, hmq x hx hm, Turbine.idled, Live.toIdle]
      · simp [hm]
    rw [hsame]
    refine (List.map_congr_left fun x hx => ?_).trans (List.map_id _)
    obtain ⟨hx, ho⟩ := List.mem_filter.1 hx
    rw [if_neg fun hm => hmq x hx hm (by simpa using ho)]
    rfl

/-- A step that is over, or that moves turbines and has none queued, stands (R98). -/
theorem drains_self {s : State} (h : WavesOk s) {n r : Nat} (hs : ∀ st, s.step? n r = some st →
    st.state ≠ .waiting ∧ st.state ≠ .holding ∧ st.state ≠ .releasing) : Drains s [(n, r)] s := by
  have hsame : ∀ st, s.step? n r = some st → drainedStep s n st = st := fun st hst => by
    obtain ⟨h1, h2, h3⟩ := hs st hst
    unfold drainedStep
    split
    · rename_i e; exact absurd e h1
    · rename_i e; exact absurd e h2
    · rename_i e; exact absurd e h3
    all_goals rfl
  refine ⟨?_, ?_, fun x hx => ⟨x, hx, .inl rfl⟩, fun _ _ _ => rfl, rfl⟩
  · rw [← updStep_waves_drainAt (g := id) h fun st hst => (hsame st hst).symm, s.updStep_id n r (g := id) fun _ => rfl]
  · have hnone : pendingAt s [(n, r)] = fun _ => false := by
      rw [pendingAt_single]
      funext q
      cases hst : s.step? n r with
      | none => rfl
      | some st =>
        obtain ⟨h1, h2, -⟩ := hs st hst
        rw [Option.any_some, beq_false_of_ne h1, beq_false_of_ne h2]
        rfl
    rw [hnone, withdrawn_none]

theorem drains_veerStep {s : State} (h : Sound s) (k : Nat × Nat) : Drains s [k] (s.veerStep k) := by
  unfold State.veerStep
  split
  · rename_i hn
    exact drains_self h.waves fun st c => by rw [hn] at c; cases c
  · rename_i st hst
    split
    · rename_i hs; exact drains_cancelStep h hst (.inl hs)
    · rename_i hs; exact drains_cancelStep h hst (.inr hs)
    · rename_i hs; exact drains_unqueueStep h hst hs
    all_goals
      rename_i hs
      refine drains_self h.waves fun x c => ?_
      cases hst.symm.trans c
      rw [hs]
      exact ⟨nofun, nofun, nofun⟩

/-! ### All steps are drained -/

theorem drains_veerSteps {l : List (Nat × Nat)} (hl : l.Nodup) {s : State} (h : Sound s) : Drains s l (l.foldl State.veerStep s) := by
  induction l generalizing s with
  | nil => exact .nil s
  | cons k l ih =>
    obtain ⟨hk, hnd⟩ := List.nodup_cons.1 hl
    exact (drains_veerStep h k).cons (ih hnd (h.veerStep k)) hk

theorem drains_cancelUnreleased {s : State} (h : Sound s) : Drains s s.stepKeys s.cancelUnreleased :=
  drains_veerSteps h.waves.stepKeys_nodup h

theorem drainAt_stepKeys {s : State} (h : WavesOk s) {w : Wave} (hw : w ∈ s.waves) : drainAt s s.stepKeys w = drainedWave s w := by
  unfold drainedWave
  split
  · rename_i hr
    refine congrArg (fun l => { w with steps := l }) (List.map_congr_left fun st hst => ?_)
    rw [if_pos (mem_stepKeys_iff.2 ⟨w, hw, hr, rfl, st, hst, rfl⟩)]
  · rename_i hr
    have he : w.steps = [] := (h.2.2.2.2.2.2 w hw).2.2 (by simpa using hr)
    cases w
    cases he
    rfl

theorem pendingAt_stepKeys {s : State} (h : WavesOk s) : pendingAt s s.stepKeys = pendingHold s := by
  funext q
  cases q with
  | deadline m => rfl
  | hold n r =>
    rw [Bool.eq_iff_iff]
    simp only [pendingAt, pendingHold, Bool.and_eq_true, decide_eq_true_eq, List.any_eq_true, beq_iff_eq]
    constructor
    · rintro ⟨hk, ha⟩
      obtain ⟨w, hw, hr, rfl, st, hst, rfl⟩ := mem_stepKeys_iff.1 hk
      rw [h.step?_of_mem hw hst, Option.any_some, Bool.and_eq_true] at ha
      exact ⟨w, hw, ⟨hr, rfl⟩, st, hst, ⟨rfl, ha.1⟩, by simpa using ha.2⟩
    · rintro ⟨w, hw, ⟨hr, rfl⟩, st, hst, ⟨rfl, hu⟩, hp⟩
      refine ⟨mem_stepKeys_iff.2 ⟨w, hw, hr, rfl, st, hst, rfl⟩, ?_⟩
      rw [h.step?_of_mem hw hst, Option.any_some, hu, hp]
      rfl

/-- No drained step waits, holds or has turbines queued (R98). -/
theorem drainedStep_state (s : State) (n : Nat) (st : WaveStep) : (drainedStep s n st).state ≠ .waiting ∧
    (drainedStep s n st).state ≠ .holding ∧ (drainedStep s n st).state ≠ .releasing := by
  unfold drainedStep
  split
  · exact ⟨nofun, nofun, nofun⟩
  · exact ⟨nofun, nofun, nofun⟩
  · dsimp only
    split <;> exact ⟨nofun, nofun, nofun⟩
  all_goals
    rename_i hs
    rw [hs]
    exact ⟨nofun, nofun, nofun⟩

theorem drainedWave_steps {s : State} (h : WavesOk s) {w : Wave} (hw : w ∈ s.waves) {st : WaveStep} (hst : st ∈ (drainedWave s w).steps) :
    st.state ≠ .waiting ∧ st.state ≠ .holding ∧ st.state ≠ .releasing := by
  unfold drainedWave at hst
  split at hst
  · obtain ⟨x, -, rfl⟩ := List.mem_map.1 hst
    exact drainedStep_state s w.num x
  · rename_i hr
    rw [(h.2.2.2.2.2.2 w hw).2.2 (by simpa using hr)] at hst
    cases hst

/-- What the cancellation of the unreleased steps leaves (R98). -/
structure Cancelled (s t : State) : Prop where
  waves : t.waves = s.waves.map (drainedWave s)
  divider : t.divider = withdrawn (pendingHold s) s.divider
  low : t.low = []
  turbines : ∀ x ∈ s.turbines, ∃ y ∈ t.turbines, y.node = x.node ∧ (x.waitsLow = true → y = x.idled) ∧ (x.waitsLow = false → y = x)
  rest : t.undrained = s.undrained

theorem cancelled_cancelUnreleased {s : State} (h : Sound s) : Cancelled s s.cancelUnreleased := by
  have hd := drains_cancelUnreleased h
  have ht := h.cancelUnreleased
  have hw : s.cancelUnreleased.waves = s.waves.map (drainedWave s) := by
    rw [hd.waves]
    exact List.map_congr_left fun w hw => drainAt_stepKeys h.waves hw
  have hwaits : ∀ y ∈ s.cancelUnreleased.turbines, y.waitsLow = false := fun y hy => by
    rw [Bool.eq_false_iff]
    intro hc
    obtain ⟨hm, -, n, r, ho⟩ := ht.books.waiting_low hy hc
    obtain ⟨w, hwm, -, st, hst, -, hp⟩ := (backs_low_iff ht.waves).1 (ht.books.owners y hy _ ho).2
    rw [hw] at hwm
    obtain ⟨w0, hw0, rfl⟩ := List.mem_map.1 hwm
    rcases hp with e | ⟨-, e⟩
    · exact (drainedWave_steps h.waves hw0 hst).2.2 e
    · exact e hm
  refine ⟨hw, by rw [hd.divider, pendingAt_stepKeys h.waves], ?_, fun x hx => ?_, hd.rest⟩
  · refine List.eq_nil_iff_forall_not_mem.2 fun n hn => ?_
    obtain ⟨y, hy, -, hc⟩ := ht.books.low.2.1 n hn
    rw [hwaits y hy] at hc
    cases hc
  · obtain ⟨y, hy, hxy⟩ := hd.turbines x hx
    refine ⟨y, hy, ?_⟩
    rcases hxy with rfl | ⟨hc, rfl⟩
    · exact ⟨rfl, fun hc => (by rw [hwaits y hy] at hc; cases hc), fun _ => rfl⟩
    · exact ⟨rfl, fun _ => rfl, fun hn => by rw [hc] at hn; cases hn⟩

end Sys2Proof.Machine

/-! The estimate step of a primed unit: the filters, the band, and the veer event (R29, R30, R33, R34, R98). -/

namespace Sys2Proof.Machine

/-! ### The notices of an event -/

/-- What a notice reads: its header and U's queue (R169, R184). -/
def State.heading (s : State) : Params × Mac × Mac × Byte × List QueuedFrame :=
  (s.params, s.supervisor, s.station, s.nodeAddr, s.queueU)

theorem heading_notify {s u : State} (n : Notice) (h : u.heading = s.heading) : (u.notify n).heading = (noticed n s).heading := by
  have hq := queueU_notify_of_header n h
  rw [← State.notify_eq_noticed] at hq ⊢
  simp only [State.heading, Prod.mk.injEq] at h ⊢
  obtain ⟨h1, h2, h3, h4, -⟩ := h
  exact ⟨by simp [h1], by simp [h2], by simp [h3], by simp [h4], hq⟩

theorem noticedAll_append (l m : List Notice) (s : State) : noticedAll (l ++ m) s = noticedAll m (noticedAll l s) := List.foldl_append

theorem heading_noticedAll {s u : State} (h : u.heading = s.heading) (l : List Notice) : (noticedAll l u).heading = (noticedAll l s).heading := by
  induction l generalizing s u with
  | nil => exact h
  | cons n l ih =>
    refine ih (s := noticed n s) (u := noticed n u) ?_
    rw [← heading_notify n h, State.notify_eq_noticed]

/-- The completions of an event raise their notices in the waves' order and are counted (R71, R184). -/
theorem completeWaves_told (s : State) :
    s.completeWaves.heading = (noticedAll ((s.waves.filter Wave.finished).map waveDoneOf) s).heading ∧
      s.completeWaves.counters = { s.counters with done := s.counters.done + BitVec.ofNat 32 (s.waves.filter Wave.finished).length } := by
  have key : ∀ (l : List Wave) (u : State), (l.foldl State.completeWave u).heading = (noticedAll (l.map waveDoneOf) u).heading ∧
      (l.foldl State.completeWave u).counters = { u.counters with done := u.counters.done + BitVec.ofNat 32 l.length } := by
    intro l
    induction l with
    | nil => exact fun u => ⟨rfl, by simp⟩
    | cons w l ih =>
      intro u
      obtain ⟨h1, h2⟩ := ih (u.completeWave w)
      have hw := heading_notify (s := u) (u := ({ u with waves := u.waves.filter fun x => x.num != w.num }).tally fun c =>
        { c with done := c.done + 1 }) w.doneNotice rfl
      refine ⟨h1.trans (heading_noticedAll (u := u.completeWave w) (s := noticed (waveDoneOf w) u) hw _), h2.trans ?_⟩
      rw [completeWave_counters, List.length_cons, Nat.add_comm, BitVec.ofNat_add, ← BitVec.add_assoc]
      rfl
  exact key _ s

/-! ### A veer event (R98) -/

/-- A state without what a veer event touches. -/
def State.unveered (s : State) : State :=
  { s with waves := [], divider := {}, turbines := [], low := [], counters := {}, queueU := [], ownDropped := 0 }

/-- What a veer event leaves (R98). -/
structure Veered (s : State) (old new : Nat) (t : State) : Prop where
  waves : t.waves = drainedWaves s
  divider : t.divider = withdrawn (pendingHold s) s.divider
  low : t.low = []
  turbines : ∀ x ∈ s.turbines, ∃ y ∈ t.turbines, y.node = x.node ∧ (x.waitsLow = true → y = x.idled) ∧ (x.waitsLow = false → y = x)
  queueU : t.queueU = (noticedAll ((drainedOut s).map waveDoneOf ++ [.veer old new (drainedCount s)]) s).queueU
  done : t.counters.done = s.counters.done + BitVec.ofNat 32 (drainedOut s).length
  rest : t.unveered = s.unveered

theorem veered_veer {s : State} (h : Sound s) (old new : Nat) : Veered s old new (s.veer old new) := by
  have hc := cancelled_cancelUnreleased h
  have hsound := h.cancelUnreleased
  have hcount : s.cancelUnreleased.cancelledSteps - s.cancelledSteps = drainedCount s := by
    simp only [State.cancelledSteps, hc.waves, List.map_map]
    rfl
  unfold State.veer
  dsimp only
  rw [hcount]
  generalize s.cancelUnreleased = c at hc hsound
  have hrest : c.unveered = s.unveered :=
    congrArg (fun x : State => { x with counters := {}, queueU := [], ownDropped := 0 }) hc.rest
  have hout : c.waves.filter Wave.finished = drainedOut s := by rw [hc.waves]; rfl
  obtain ⟨hhead, hdone⟩ := completeWaves_told c
  rw [hout] at hhead hdone
  have hcs : c.heading = s.heading := (congrArg State.heading hc.rest :)
  have haside := WavesOnly.completeWaves c
  refine ⟨?_, (completeWaves_aside c).1.trans hc.divider, haside.low.trans hc.low, ?_, ?_, ?_, ?_⟩
  · exact (completeWaves_waves hsound.waves).trans (by rw [hc.waves]; rfl)
  · change ∀ x ∈ s.turbines, ∃ y ∈ c.completeWaves.turbines, _
    rw [haside.turbines]
    exact hc.turbines
  · have hv : ((c.completeWaves.tally fun c => { c with veers := c.veers + 1 }).notify (.veer old new (drainedCount s))).heading =
        (noticed (.veer old new (drainedCount s)) (noticedAll ((drainedOut s).map waveDoneOf) s)).heading :=
      heading_notify (u := c.completeWaves.tally fun c => { c with veers := c.veers + 1 }) _ (hhead.trans (heading_noticedAll hcs _))
    rw [noticedAll_append]
    exact (congrArg (fun x => x.2.2.2.2) hv :)
  · have h1 : c.counters = s.counters := (congrArg State.counters hc.rest :)
    change c.completeWaves.counters.done = _
    rw [hdone, h1]
  · refine Eq.trans ?_ hrest
    have := congrArg (fun x : State => { x with turbines := [], low := [] }) haside.aside_eq
    exact this

/-! ### The arbiter with nothing queued for LOW -/

theorem grantHigh_waves_low {s : State} (h : Sound s) {n : Nat} {rest : List Nat} (hl : s.high = n :: rest) :
    (s.grantNode n .high).waves = s.waves ∧ (s.grantNode n .high).low = s.low := by
  obtain ⟨x, hx, rfl, hw⟩ := h.books.high.2.1 n (by rw [show s.desk.high = s.high from rfl, hl]; exact List.mem_cons_self)
  obtain ⟨-, -, r, ho⟩ := h.books.waiting_high hx hw
  rw [State.grantNode_eq (h.table.turbine?_of_mem hx) .high, ho]
  obtain ⟨-, -, hwaves, -⟩ := s.granting_fields x .high (x.live.target.getD 0) (s.ownerSet (some (.neutral r)))
  have hlow : (((s.dequeue .high).framed x .high (x.live.target.getD 0) (s.ownerSet (some (.neutral r)))).takeSlot .high).low = s.low := rfl
  generalize ((s.dequeue .high).framed x .high (x.live.target.getD 0) (s.ownerSet (some (.neutral r)))).takeSlot .high = v at *
  change (v.grantedNeutral r).waves = _ ∧ (v.grantedNeutral r).low = _
  unfold State.grantedNeutral
  split <;> exact ⟨hwaves, hlow⟩

theorem arbiterStep_noLow {s t : State} (h : Sound s) (hl : s.low = []) (e : s.arbiterStep = some t) : t.waves = s.waves ∧ t.low = [] := by
  unfold State.arbiterStep at e
  split at e
  · split at e
    · cases e
    · cases e
      unfold State.retargetNode
      dsimp only
      split <;> exact ⟨rfl, hl⟩
  · obtain ⟨⟨n, c⟩, hg, rfl⟩ := Option.map_eq_some_iff.1 e
    unfold State.grantable at hg
    rw [hl] at hg
    split at hg
    · cases hg
    · split at hg
      · rename_i hh
        split at hg
        · cases hg
          obtain ⟨h1, h2⟩ := grantHigh_waves_low h hh
          exact ⟨h1, h2.trans hl⟩
        · cases hg
      · rename_i hc
        cases hc
      · cases hg

/-- Frames for the neutral context leave the waves and the LOW list (R128). -/
theorem serveArbiter_noLow {s : State} (h : Sound s) (hl : s.low = []) : s.serveArbiter.waves = s.waves ∧ s.serveArbiter.low = [] := by
  unfold State.serveArbiter
  generalize s.retargets.length + s.high.length + s.low.length = fuel
  induction fuel generalizing s with
  | zero => exact ⟨rfl, hl⟩
  | succ fuel ih =>
    unfold State.arbiterLoop
    split
    · rename_i t e
      obtain ⟨h1, h2⟩ := arbiterStep_noLow h hl e
      obtain ⟨h3, h4⟩ := ih (h.arbiterStep e) h2
      exact ⟨h3.trans h1, h4⟩
    · exact ⟨rfl, hl⟩

/-- An arbiter that had nothing left to do has nothing left where only LOW requests have gone. -/
theorem ArbiterServed.noLow {s t : State} (h : ArbiterServed s) (hl : t.low = []) (hr : t.retargets = s.retargets)
    (hh : t.high = s.high) (hq : t.queueD = s.queueD) (hp : t.params = s.params) (hs : t.slots = s.slots) : ArbiterServed t := by
  obtain ⟨h1, h2⟩ := h
  refine ⟨by rw [hr, hq]; exact h1, fun e => ?_⟩
  have hg := h2 (hr.symm.trans e)
  unfold State.grantable State.freePlaces at hg ⊢
  rw [hq, hh, hl, hs, hp]
  split
  · rfl
  · rename_i hf
    rw [if_neg hf] at hg
    cases hhigh : s.high with
    | nil => rfl
    | cons n rest =>
      rw [hhigh] at hg
      exact hg

/-! ### The end of a veer event -/

theorem State.judgeEnd_aside (s : State) : s.judgeEnd.counters = s.counters ∧ s.judgeEnd.queueD = s.queueD ∧
    s.judgeEnd.params = s.params ∧ s.judgeEnd.slots = s.slots := by
  unfold State.judgeEnd
  split
  · exact ⟨rfl, rfl, rfl, rfl⟩
  · split <;> exact ⟨rfl, rfl, rfl, rfl⟩

theorem Wave.steps_evaluateLatches_of_mem {s : State} {w : Wave} (hw : w ∈ s.evaluateLatches.waves) : ∃ v ∈ s.waves, w.steps = v.steps := by
  obtain ⟨v, hv, rfl⟩ := List.mem_map.1 hw
  exact ⟨v, hv, (v.evaluateLatches_same _ _ _ _).2.2⟩

namespace Veered

variable {s v : State} {old new : Nat}

theorem noHolding (h : Veered s old new v) (hs : Sound s) : NoHolding v.evaluateLatches := fun w hw st hst => by
  obtain ⟨x, hx, e⟩ := Wave.steps_evaluateLatches_of_mem hw
  rw [e] at hst
  rw [h.waves] at hx
  obtain ⟨w0, hw0, rfl⟩ := List.mem_map.1 (List.mem_filter.1 hx).1
  exact (drainedWave_steps hs.waves hw0 hst).2.1

theorem settle_eq (h : Veered s old new v) (hs : Sound s) : v.evaluateLatches.settle = v.evaluateLatches.judgeEnd.serveArbiter := by
  unfold State.settle State.settleAfter
  rw [State.releaseTests_noHolding (h.noHolding hs)]

theorem arbiterServed (h : Veered s old new v) (ha : ArbiterServed s) : ArbiterServed v.evaluateLatches.judgeEnd := by
  obtain ⟨-, hlow, hhigh, hret, -, -⟩ := v.evaluateLatches.judgeEnd_stays
  obtain ⟨-, hq, hp, hslots⟩ := v.evaluateLatches.judgeEnd_aside
  have h1 : v.retargets = s.retargets := (congrArg State.retargets h.rest :)
  have h2 : v.high = s.high := (congrArg State.high h.rest :)
  have h3 : v.queueD = s.queueD := (congrArg State.queueD h.rest :)
  have h4 : v.params = s.params := (congrArg State.params h.rest :)
  have h5 : v.slots = s.slots := (congrArg State.slots h.rest :)
  exact ha.noLow (hlow.trans h.low) (hret.trans h1) (hhigh.trans h2) (hq.trans h3) (hp.trans h4) (hslots.trans h5)

/-- A turbine that was not queued for LOW, after the frames of the arbiter (R98, R126). -/
theorem drained_granted {x y z : Turbine} (hn : y.node = x.node) (hw : x.waitsLow = true → y = x.idled) (hs : x.waitsLow = false → y = x)
    (hg : Granted y z) : Drained x z := by
  have hnode : z.node = y.node := by
    rcases hg with rfl | ⟨-, c, g, rfl, -⟩ <;> rfl
  have hstay : y.live.move = .moving ∨ y.live.move = .idle → z = y := fun hm => by
    rcases hg with rfl | ⟨hq, -⟩
    · rfl
    · rcases hm with e | e <;> rw [e] at hq <;> rcases hq with c | c <;> cases c
  refine ⟨hnode.trans hn, fun hc => ?_, fun hm => ?_⟩
  · obtain rfl := hw hc
    exact hstay (.inr rfl)
  · have hc : x.waitsLow = false := by
      unfold Turbine.waitsLow
      rcases hm with e | e <;> rw [e]
    obtain rfl := hs hc
    exact hstay hm

/-- What a veer event shows at the end of its estimate step (R98). -/
theorem settled (h : Veered s old new v) (hs : Sound s) (hv : Sound v) :
    let t := v.evaluateLatches.settle
    t.waves = (drainedWaves s).map (fun w => w.evaluateLatches v.df v.uf v.params.wThreshold v.params.gThreshold) ∧ t.low = [] ∧
      (∀ x ∈ s.turbines, ∃ z ∈ t.turbines, Drained x z) ∧
      t.counters.done = s.counters.done + BitVec.ofNat 32 (drainedOut s).length ∧
      DividerLeaves s t (pendingHold s) ∧ (ArbiterServed s → t.divider = withdrawn (pendingHold s) s.divider) ∧
      (s.mode = .steer → t.mode = .steer ∧
        t.queueU = (noticedAll ((drainedOut s).map waveDoneOf ++ [.veer old new (drainedCount s)]) s).queueU) := by
  intro t
  have ht : t = v.evaluateLatches.judgeEnd.serveArbiter := h.settle_eq hs
  have hsound : Sound v.evaluateLatches.judgeEnd := (sound_evolves.evaluateLatches v hv).judgeEnd
  obtain ⟨hwaves, hlow, -, -, htur, hdiv⟩ := v.evaluateLatches.judgeEnd_stays
  obtain ⟨hcount, -, -, -⟩ := v.evaluateLatches.judgeEnd_aside
  have hserves := serves_serveArbiter hsound
  obtain ⟨hw, hl⟩ := serveArbiter_noLow hsound (hlow.trans h.low)
  rw [ht]
  refine ⟨?_, hl, fun x hx => ?_, ?_, ?_, fun ha => ?_, fun hm => ?_⟩
  · rw [hw, hwaves, ← h.waves]
    rfl
  · obtain ⟨y, hy, hn, hidle, hsame⟩ := h.turbines x hx
    obtain ⟨z, hz, hg⟩ := hserves.turbines y (by rw [htur]; exact hy)
    exact ⟨z, hz, drained_granted hn hidle hsame hg⟩
  · rw [hserves.tells.counters, hcount]
    exact h.done
  · obtain ⟨-, placed, hp, hd⟩ := hserves.blocked (.inl (hlow.trans h.low))
    refine ⟨placed, ?_, hd⟩
    rw [hp, hdiv]
    exact congrArg (fun d => placed.foldl Divider.place d) h.divider
  · rw [serveArbiter_of_served (h.arbiterServed ha), hdiv]
    exact h.divider
  · have hmode : v.mode = s.mode := (congrArg State.mode h.rest :)
    have hstands := State.judgeEnd_of_steer (s := v.evaluateLatches) (hmode.trans hm)
    refine ⟨?_, ?_⟩
    · rw [hserves.mode, hstands]
      exact hmode.trans hm
    · rw [hserves.tells.queueU, hstands]
      exact h.queueU

end Veered

/-! ### The filters and the band (R29, R30, R33) -/

theorem inBand_iff {d k h : Nat} (hd : d ≤ 3599) (hk : k ≤ 23) (hh : h ≤ 75) : inBand d k h = true ↔ InWidenedBand d k h := by
  unfold inBand InWidenedBand
  rw [decide_eq_true_eq]
  constructor
  · intro hlt
    rcases lt_trichotomy ((d : Int) - (150 * (k : Int) - h)) 0 with c | c | c
    · exact ⟨3600, by omega, by omega, by omega⟩
    · exact ⟨0, by omega, by omega, by omega⟩
    · rcases lt_or_ge ((d : Int) - (150 * (k : Int) - h)) 3600 with e | e
      · exact ⟨0, by omega, by omega, by omega⟩
      · exact ⟨-3600, by omega, by omega, by omega⟩
  · rintro ⟨turn, rfl | rfl | rfl, h1, h2⟩ <;> omega

/-- The state whose sector a primed unit's estimate step judges. -/
def State.judged (s : State) (f : Filter) (r : Nat × Nat) : State :=
  State.filtered { s with estimateDue := false } (State.filteredBy { s with estimateDue := false } f r)

theorem quiet_judgeSector (s : State) : s.judgeSector.quiet = s.quiet := by
  unfold State.judgeSector
  split
  · rfl
  · split
    · rfl
    · dsimp only
      split
      · exact quiet_propagates.veer (fun _ => rfl) _ _ _
      · rfl

/-- A veer event is counted, and leaves the rest of what `Steady` lists (R34). -/
theorem steady_veer (s : State) (old new : Nat) :
    Steady { s with counters := { s.counters with veers := s.counters.veers + 1 } } (s.veer old new) := by
  have h := (steady_propagates.cancelUnreleased s).trans (steady_propagates.completeWaves s.cancelUnreleased)
  unfold State.veer
  dsimp only
  generalize s.cancelUnreleased.completeWaves = u at h ⊢
  have h1 : Steady { s with counters := { s.counters with veers := s.counters.veers + 1 } }
      (u.tally fun c => { c with veers := c.veers + 1 }) := { h with veers := congrArg (· + 1) h.veers }
  exact h1.trans (steady_propagates.notify _ _)

/-- The state with the sector of the filtered direction (R32). -/
def State.resectored (s : State) : State := { s with sector := some (s.df / 150) }

theorem State.judgeSector_veers {s : State} {k : Nat} (hk : s.sector = some k) (hb : inBand s.df k s.params.hysteresis = false)
    (hm : s.mode = .steer ∨ s.mode = .drain) : s.judgeSector = s.resectored.veer k (s.df / 150) := by
  unfold State.judgeSector
  rw [hk]
  dsimp only
  rw [hb, if_neg Bool.false_ne_true, if_pos hm]
  rfl

theorem State.judgeSector_moves {s : State} {k : Nat} (hk : s.sector = some k) (hb : inBand s.df k s.params.hysteresis = false)
    (hm : ¬(s.mode = .steer ∨ s.mode = .drain)) : s.judgeSector = s.resectored := by
  unfold State.judgeSector
  rw [hk]
  dsimp only
  rw [hb, if_neg Bool.false_ne_true, if_neg hm]
  rfl

theorem State.judgeSector_in {s : State} {k : Nat} (hk : s.sector = some k) (hb : inBand s.df k s.params.hysteresis = true) :
    s.judgeSector = s := by
  unfold State.judgeSector
  rw [hk]
  dsimp only
  rw [hb]
  rfl

theorem judged_df (s : State) (f : Filter) (r : Nat × Nat) :
    (s.judged f r).df = ((State.filteredBy { s with estimateDue := false } f r).direction / 256).toNat := rfl

/-- The filtered direction is one of the circle's (R30). -/
theorem judged_df_le {s : State} {f : Filter} (h : 0 ≤ f.direction) (h' : f.direction ≤ 921599) (r : Nat × Nat) :
    (s.judged f r).df ≤ 3599 := by
  rw [judged_df]
  obtain ⟨h1, h2⟩ := directionStep_range (raw := r.2) (shift := s.params.directionShift) h h'
  change (directionStep f.direction r.2 s.params.directionShift / 256).toNat ≤ 3599
  omega

theorem sound_judged_resectored {s : State} (h : Sound s) (f : Filter) (r : Nat × Nat) : Sound (s.judged f r).resectored :=
  Sound.of_ledger (s := s.judgeSources) rfl (sound_evolves.sources s _ (fun _ => ⟨rfl, rfl⟩) h)

theorem steady_veer_settled (s : State) (old new : Nat) :
    Steady { s with counters := { s.counters with veers := s.counters.veers + 1 } } (s.veer old new).evaluateLatches.settle :=
  ((steady_veer _ _ _).trans (steady_evaluateLatches _)).trans (steady_settle _)

/-- Settles O47: the filters, the judgement of the sector, and the veer event with the end of its step. -/
theorem estimateFilters : Obligations.EstimateFilters := by
  intro s f k speed direction rest hr hd hfresh hf hk hrange hh raw
  set r := (speed, direction) with hrdef
  have hexec : exec .estimateStep s = .next (s.judged f r).judgeSector.evaluateLatches.settle := by
    rw [exec_estimateStep hr hd, State.estimate_filters (s := { s with estimateDue := false }) hfresh hf]
    rfl
  obtain ⟨-, -, -, hfr, hkr⟩ := hrange
  obtain ⟨-, -, h0, h1⟩ := hfr f hf
  have hdf := judged_df_le (s := s) h0 h1 r
  have hk23 := hkr k hk
  refine ⟨_, wrapDir ((direction : Int) - f.direction / 256), _, State.filteredBy { s with estimateDue := false } f r, hexec,
    ⟨(wrapDir_range _).1, (wrapDir_range _).2, ?_⟩, rfl, rfl, ?_, fun hb => ?_, fun hb => ?_⟩
  · unfold wrapDir
    omega
  · exact (quiet_propagates.settle _).trans (quiet_judgeSector _)
  · rw [State.judgeSector_in (s := s.judged f r) hk ((inBand_iff hdf hk23 hh).2 hb)]
    exact (steady_evaluateLatches _).trans (steady_settle _)
  · have hout : inBand (s.judged f r).df k s.params.hysteresis = false :=
      Bool.eq_false_iff.2 fun c => hb ((inBand_iff hdf hk23 hh).1 c)
    by_cases hm : s.mode = .steer ∨ s.mode = .drain
    · rw [State.judgeSector_veers (s := s.judged f r) hk hout hm, if_pos hm]
      have hsteady := steady_veer_settled (s.judged f r).resectored k ((s.judged f r).df / 150)
      refine ⟨hsteady, fun _ hok => ?_⟩
      have hs := sound_judged_resectored (arbiterOk_iff.1 hok).2 f r
      have hv := veered_veer hs k ((s.judged f r).df / 150)
      have hfil : ((s.judged f r).resectored.veer k ((s.judged f r).df / 150)).filter = (s.judged f r).filter :=
        (congrArg State.filter hv.rest :)
      have hpar : ((s.judged f r).resectored.veer k ((s.judged f r).df / 150)).params = (s.judged f r).params :=
        (congrArg State.params hv.rest :)
      have hset := hv.settled hs (hs.veer _ _)
      generalize (s.judged f r).resectored.veer k ((s.judged f r).df / 150) = v at *
      have hdf : v.evaluateLatches.settle.df = v.df := by rw [State.df, hsteady.filter, State.df, hfil]; rfl
      have huf : v.evaluateLatches.settle.uf = v.uf := by rw [State.uf, hsteady.filter, State.uf, hfil]; rfl
      rw [hpar] at hset
      obtain ⟨hwaves, hlow, htur, hdone, hdiv, hexact, hsteer⟩ := hset
      rw [hdf, huf]
      refine ⟨hwaves, hlow, htur, hdone, hdiv, hexact, fun e => ?_⟩
      obtain ⟨hmode, hqueue⟩ := hsteer e
      have hhead := heading_noticedAll (s := s) (u := (s.judged f r).resectored) rfl
        ((drainedOut s).map waveDoneOf ++ [.veer k ((s.judged f r).df / 150) (drainedCount s)])
      exact ⟨hmode, hqueue.trans (congrArg (fun x => x.2.2.2.2) hhead :)⟩
    · rw [State.judgeSector_moves (s := s.judged f r) hk hout hm, if_neg hm]
      exact ⟨(steady_evaluateLatches _).trans (steady_settle _), fun c => absurd c hm⟩

end Sys2Proof.Machine
